-- ==== Sys2Proof/Word.lean ====
section
/-! DEFINITION. The word types of the block. -/

namespace Sys2Proof

/-- One byte: a shard byte, or one byte lane of the bus (20_memory.md R91). -/
abbrev Byte := BitVec 8

/-- A 16-bit value: matrix elements, table entries, counts, the field operands (10_state.md R43, R46, R59). -/
abbrev Half := BitVec 16

/-- A 32-bit bus word (20_memory.md R90). -/
abbrev Word := BitVec 32

end Sys2Proof
end

