-- ==== Sys2Proof/Syntax.lean ====
section
/-! DEFINITION. The commands, and the registers and bus operations of the host, as syntax. -/

namespace Sys2Proof

/-- The field width of a command: `w = 8` or `w = 16` (00_scope.md R9, 30_encoding.md R133). -/
inductive Width
  | w8
  | w16
  deriving DecidableEq, Repr

/-- `w` as a number of bits. -/
def Width.bits : Width → Nat
  | .w8 => 8
  | .w16 => 16

/-- The matrix registers `M[0]` to `M[3]` and `M[4] = ENC` (10_state.md R46). -/
inductive MatReg
  | m0
  | m1
  | m2
  | m3
  | enc
  deriving DecidableEq, Repr

/-- The number of a matrix register (30_encoding.md R134, R135). -/
def MatReg.num : MatReg → Nat
  | .m0 => 0
  | .m1 => 1
  | .m2 => 2
  | .m3 => 3
  | .enc => 4

/-- One constructor for each row of the opcode table (30_encoding.md R132), with the fields the command uses. -/
inductive Instr
  | nop
  | gfAdd (w : Width)
  | gfMul (w : Width)
  | gfDiv (w : Width)
  | gfInv (w : Width)
  | gfPow (w : Width)
  | matIdentity (md : MatReg)
  | matMul (w : Width) (md ma mb : MatReg)
  | matSub (md ma : MatReg)
  | matInv (w : Width) (md ma : MatReg)
  | matBuild (w : Width) (md : MatReg)
  | rsConstruct (w : Width)
  | rsEncode
  | rsVerify
  | rsReconstruct
  deriving DecidableEq, Repr

/-- The assigned opcodes (30_encoding.md R132). -/
inductive Opcode
  | nop
  | gfAdd
  | gfMul
  | gfDiv
  | gfInv
  | gfPow
  | matIdentity
  | matMul
  | matSub
  | matInv
  | matBuild
  | rsConstruct
  | rsEncode
  | rsVerify
  | rsReconstruct
  deriving DecidableEq, Repr

/-- Which fields of the command word an opcode uses (30_encoding.md R132, column "fields used"). -/
structure FieldsUsed where
  w : Bool
  md : Bool
  ma : Bool
  mb : Bool
  deriving DecidableEq, Repr

/-- Why a command word is illegal: one reason for each clause of 30_encoding.md R137. -/
inductive IllegalWord
  /-- (a): bits 7:0 are no assigned opcode. -/
  | reservedOpcode
  /-- (b): bits 31:18 are not 0. -/
  | reservedBits
  /-- (c): a field that the opcode does not use is not 0. -/
  | unusedField
  /-- (d): `MD > 3`. -/
  | destination
  /-- (e): `MA > 4` or `MB > 4`. -/
  | source
  deriving DecidableEq, Repr

/-- The registers of the register map (10_state.md R31). -/
inductive Reg
  | id
  | capNmax
  | capShcap
  | status
  | cmd
  | intEn
  | cfgNdata
  | cfgNparity
  | engNdata
  | engNparity
  | argN
  | gfA
  | gfB
  | gfN
  | gfR
  | matSel
  | matShape
  | matRow
  | matCol
  | matData
  | idxCount
  | idxPtr
  | idxData
  | slotCount
  | slotSel
  | slotLen
  | slotPresent
  | shSlot
  | shOff
  | shData
  | tblSel
  | tblIdx
  | tblData
  deriving DecidableEq, Repr

/-- A bus transaction of the host at a platform byte address (20_memory.md R90). Its size is a number of bytes: the
length of `lanes` for a write, whose byte `k` is driven at `addr + k` (20_memory.md R91). -/
inductive BusOp
  | read (addr size : Nat)
  | write (addr : Nat) (lanes : List Byte)
  deriving DecidableEq, Repr

/-- Whose step comes next: a host access, the engine, or the reset input (00_scope.md R21, 70_reset_and_hazards.md
R320). -/
inductive Turn
  | host (op : BusOp)
  | engine
  | reset
  deriving DecidableEq, Repr

end Sys2Proof
end

