-- ==== Sys2Proof/WellFormed.lean ====
section
/-! DEFINITION. Which commands are well formed: a destination is a general matrix register. -/

namespace Sys2Proof

/-- A legal destination: `M[0]` to `M[3]`, never `M[ENC]` (30_encoding.md R134). -/
def MatReg.general : MatReg → Bool
  | .m0 => true
  | .m1 => true
  | .m2 => true
  | .m3 => true
  | .enc => false

/-- The commands that have an encoding (30_encoding.md R134, R137 (d)). -/
def Instr.wf : Instr → Bool
  | .nop => true
  | .gfAdd _ => true
  | .gfMul _ => true
  | .gfDiv _ => true
  | .gfInv _ => true
  | .gfPow _ => true
  | .matIdentity md => md.general
  | .matMul _ md _ _ => md.general
  | .matSub md _ => md.general
  | .matInv _ md _ => md.general
  | .matBuild _ md => md.general
  | .rsConstruct _ => true
  | .rsEncode => true
  | .rsVerify => true
  | .rsReconstruct => true

end Sys2Proof
end

