-- ==== Sys2Proof/Decode.lean ====
section
/-! DEFINITION. The decoder of command words (30_encoding.md R139), and after it the encoder, written from the same
tables of 30_encoding.md R131 to R135. -/

namespace Sys2Proof

/-- The opcode numbers (30_encoding.md R132). -/
def Opcode.code : Opcode → BitVec 8
  | .nop => 0x00
  | .gfAdd => 0x01
  | .gfMul => 0x02
  | .gfDiv => 0x03
  | .gfInv => 0x04
  | .gfPow => 0x05
  | .matIdentity => 0x10
  | .matMul => 0x11
  | .matSub => 0x12
  | .matInv => 0x13
  | .matBuild => 0x14
  | .rsConstruct => 0x20
  | .rsEncode => 0x21
  | .rsVerify => 0x22
  | .rsReconstruct => 0x23

/-- The fifteen assigned opcodes (30_encoding.md R132). -/
def Opcode.all : List Opcode :=
  [.nop, .gfAdd, .gfMul, .gfDiv, .gfInv, .gfPow, .matIdentity, .matMul, .matSub, .matInv, .matBuild,
    .rsConstruct, .rsEncode, .rsVerify, .rsReconstruct]

/-- The opcode that bits 7:0 name, if they name one (30_encoding.md R137 (a), R138). -/
def Opcode.ofCode (c : BitVec 8) : Option Opcode :=
  Opcode.all.find? (fun o => o.code == c)

/-- The column "fields used" of 30_encoding.md R132. -/
def Opcode.uses : Opcode → FieldsUsed
  | .nop => ⟨false, false, false, false⟩
  | .gfAdd => ⟨true, false, false, false⟩
  | .gfMul => ⟨true, false, false, false⟩
  | .gfDiv => ⟨true, false, false, false⟩
  | .gfInv => ⟨true, false, false, false⟩
  | .gfPow => ⟨true, false, false, false⟩
  | .matIdentity => ⟨false, true, false, false⟩
  | .matMul => ⟨true, true, true, true⟩
  | .matSub => ⟨false, true, true, false⟩
  | .matInv => ⟨true, true, true, false⟩
  | .matBuild => ⟨true, true, false, false⟩
  | .rsConstruct => ⟨true, false, false, false⟩
  | .rsEncode => ⟨false, false, false, false⟩
  | .rsVerify => ⟨false, false, false, false⟩
  | .rsReconstruct => ⟨false, false, false, false⟩

/-- `W = 0` selects GF(2^8) and `W = 1` GF(2^16) (30_encoding.md R133). -/
def Width.ofField (b : Bool) : Width := if b then .w16 else .w8

/-- The matrix register of a field value in range (30_encoding.md R134, R135); the decoder has refused 5 to 7. -/
def MatReg.ofField (x : BitVec 3) : MatReg :=
  match x.toNat with
  | 0 => .m0
  | 1 => .m1
  | 2 => .m2
  | 3 => .m3
  | _ => .enc

/-- The command of an opcode and its field values (30_encoding.md R132). -/
def Opcode.build (o : Opcode) (w : Width) (md ma mb : MatReg) : Instr :=
  match o with
  | .nop => .nop
  | .gfAdd => .gfAdd w
  | .gfMul => .gfMul w
  | .gfDiv => .gfDiv w
  | .gfInv => .gfInv w
  | .gfPow => .gfPow w
  | .matIdentity => .matIdentity md
  | .matMul => .matMul w md ma mb
  | .matSub => .matSub md ma
  | .matInv => .matInv w md ma
  | .matBuild => .matBuild w md
  | .rsConstruct => .rsConstruct w
  | .rsEncode => .rsEncode
  | .rsVerify => .rsVerify
  | .rsReconstruct => .rsReconstruct

/-- OPC = `v[7:0]` (30_encoding.md R131). -/
def opcField (v : Word) : BitVec 8 := v.extractLsb' 0 8
/-- W = `v[8]` (30_encoding.md R131). -/
def wField (v : Word) : Bool := v.getLsbD 8
/-- MD = `v[11:9]` (30_encoding.md R131). -/
def mdField (v : Word) : BitVec 3 := v.extractLsb' 9 3
/-- MA = `v[14:12]` (30_encoding.md R131). -/
def maField (v : Word) : BitVec 3 := v.extractLsb' 12 3
/-- MB = `v[17:15]` (30_encoding.md R131). -/
def mbField (v : Word) : BitVec 3 := v.extractLsb' 15 3
/-- RSV = `v[31:18]` (30_encoding.md R131). -/
def rsvField (v : Word) : BitVec 14 := v.extractLsb' 18 14

/-- Some field that the opcode does not use is not 0 (30_encoding.md R137 (c)). -/
def unusedFieldSet (u : FieldsUsed) (v : Word) : Bool :=
  (!u.w && wField v) || (!u.md && mdField v != 0) || (!u.ma && maField v != 0) || (!u.mb && mbField v != 0)

/-- The decoder, check by check as in 30_encoding.md R139. -/
def decode (v : Word) : Except IllegalWord Instr :=
  match Opcode.ofCode (opcField v) with
  | none => .error .reservedOpcode
  | some o =>
    if rsvField v ≠ 0 then .error .reservedBits
    else if unusedFieldSet o.uses v then .error .unusedField
    else if o.uses.md && 3 < (mdField v).toNat then .error .destination
    else if (o.uses.ma && 4 < (maField v).toNat) || (o.uses.mb && 4 < (mbField v).toNat) then .error .source
    else .ok (o.build (Width.ofField (wField v)) (MatReg.ofField (mdField v)) (MatReg.ofField (maField v))
      (MatReg.ofField (mbField v)))

/-- The command that the decoder reads from the low `nbits` bits of `w`, all other bits 0: a command is one 32-bit
word (30_encoding.md R130), so a number that does not fit is none. -/
def decodeTableWord (nbits w : Nat) : Option Instr :=
  if w % 2 ^ nbits < 2 ^ 32 then (decode (BitVec.ofNat 32 (w % 2 ^ nbits))).toOption else none

/-- The opcode of a command (30_encoding.md R132). -/
def Instr.opcode : Instr → Opcode
  | .nop => .nop
  | .gfAdd _ => .gfAdd
  | .gfMul _ => .gfMul
  | .gfDiv _ => .gfDiv
  | .gfInv _ => .gfInv
  | .gfPow _ => .gfPow
  | .matIdentity _ => .matIdentity
  | .matMul _ _ _ _ => .matMul
  | .matSub _ _ => .matSub
  | .matInv _ _ _ => .matInv
  | .matBuild _ _ => .matBuild
  | .rsConstruct _ => .rsConstruct
  | .rsEncode => .rsEncode
  | .rsVerify => .rsVerify
  | .rsReconstruct => .rsReconstruct

/-- The W bit (30_encoding.md R133). -/
def Width.field : Width → BitVec 1
  | .w8 => 0
  | .w16 => 1

/-- A matrix register as a field value (30_encoding.md R134, R135). -/
def MatReg.field (m : MatReg) : BitVec 3 := BitVec.ofNat 3 m.num

/-- A command word from its fields, each at its place, with RSV 0 (30_encoding.md R131). -/
def packWord (o : Opcode) (w : BitVec 1) (md ma mb : BitVec 3) : Word :=
  o.code.setWidth 32 ||| w.setWidth 32 <<< 8 ||| md.setWidth 32 <<< 9 ||| ma.setWidth 32 <<< 12
    ||| mb.setWidth 32 <<< 15

/-- The word of a command; a field the command does not use is 0 (30_encoding.md R137 (c)). -/
def encode : Instr → Word
  | .nop => packWord .nop 0 0 0 0
  | .gfAdd w => packWord .gfAdd w.field 0 0 0
  | .gfMul w => packWord .gfMul w.field 0 0 0
  | .gfDiv w => packWord .gfDiv w.field 0 0 0
  | .gfInv w => packWord .gfInv w.field 0 0 0
  | .gfPow w => packWord .gfPow w.field 0 0 0
  | .matIdentity md => packWord .matIdentity 0 md.field 0 0
  | .matMul w md ma mb => packWord .matMul w.field md.field ma.field mb.field
  | .matSub md ma => packWord .matSub 0 md.field ma.field 0
  | .matInv w md ma => packWord .matInv w.field md.field ma.field 0
  | .matBuild w md => packWord .matBuild w.field md.field 0 0
  | .rsConstruct w => packWord .rsConstruct w.field 0 0 0
  | .rsEncode => packWord .rsEncode 0 0 0 0
  | .rsVerify => packWord .rsVerify 0 0 0 0
  | .rsReconstruct => packWord .rsReconstruct 0 0 0 0

end Sys2Proof
end

