-- ==== Sys2Proof/Config.lean ====
section
/-! DEFINITION. What an implementation fixes (the parameters of 00_scope.md R11, R12 and 20_memory.md R109) and the
free values that the spec leaves open (10_state.md R66). -/

namespace Sys2Proof

/-- The implementation parameters. DESIGN CHOICE: they are carried beside the state, as `State.params`, and no step
writes them, so a statement about every state is a statement about every part (log 1). -/
structure Params where
  /-- `N_MAX`, the capacity in slots, matrix rows and columns, and row-index entries (00_scope.md R11). -/
  nMax : Nat
  /-- `SHARD_CAP`, the bytes of one shard slot (00_scope.md R12). -/
  shardCap : Nat
  /-- `BASE`, the platform address of the register block (20_memory.md R109). -/
  base : Nat
  deriving DecidableEq, Repr

/-- The ranges that 00_scope.md R11, R12 and 20_memory.md R109 give the parameters. -/
def Params.wf (p : Params) : Bool :=
  1 ≤ p.nMax && p.nMax ≤ 65535 && 1 ≤ p.shardCap && p.shardCap ≤ 2 ^ 32 - 1 && p.base % 256 == 0

/-- The parameters of `State.reset`. DESIGN CHOICE: the example values of 00_scope.md R14, and `BASE = 0` (log 1). -/
def Params.testVectors : Params := ⟨255, 1024, 0⟩

/-- A location of the arrays whose contents reset leaves unspecified (10_state.md R65). -/
inductive Loc
  /-- `M[m].el[r][c]` -/
  | el (m r c : Nat)
  /-- `IDX[j]` -/
  | idx (j : Nat)
  /-- `SLOT[s].len` -/
  | slotLen (s : Nat)
  /-- `SLOT[s].present` -/
  | slotPresent (s : Nat)
  /-- `SH[s][o]` -/
  | shard (s o : Nat)
  deriving DecidableEq, Repr

/-- The free value drawn when a location not written since reset is read (10_state.md R66). `tick` is the model's
draw counter `State.draws`, which every step that may draw advances, `use` tells apart the reads of one location
within one step, and `loc` is the location. It has no body, so nothing can be proved of its value (log 2). -/
opaque Config.freeValue : (tick : Nat) → (use : List Nat) → (loc : Loc) → Word

end Sys2Proof
end

