-- ==== Sys2Proof/Machine/State.lean ====
section
/-! DEFINITION. The state of the block (10_state.md R30) and its reset value (10_state.md R65). -/

namespace Sys2Proof.Machine

/-- The ways the model stops. No command ends in one: every error of the block is a next state (60_exceptions.md
R290). -/
inductive Fault
  /-- Raised by a host turn whose platform address is outside the 256-byte block at `BASE`. Safe: the spec gives such
  an access no meaning (20_memory.md R90, R109; log 6). -/
  | addressOutsideBlock
  /-- Raised by an engine turn when `BUSY = 1` and no word is pending. Safe: no run reaches such a state
  (10_state.md R63; log 7). -/
  | noPendingWord
  deriving DecidableEq, Repr

/-- The ways the model refuses. -/
inductive Refusal
  /-- Raised by `exec` for a command that has no meaning in the model, by its mnemonic. Safe. No arm raises it. -/
  | notModelled (mnemonic : String)
  deriving DecidableEq, Repr

/-- The kinds of command error (60_exceptions.md R291). -/
inductive CmdError
  | invalidShardCount
  | incorrectShardSize
  | tooManyShards
  | tooFewShardsPresent
  | divideByZero
  | matrixSingular
  | dimensionMismatch
  | illegalCommand
  | notConfigured
  | indexOutOfRange
  | capacityExceeded
  deriving DecidableEq, Repr

/-- The fields of the `STATUS` register (10_state.md R35). Its word is `Status.word`. -/
structure Status where
  busy : Bool
  done : Bool
  err : Bool
  verifyOk : Bool
  configured : Bool
  engW16 : Bool
  accErr : Bool
  errCode : BitVec 4
  deriving DecidableEq, Repr

/-- The shape of a matrix register: two 16-bit unsigned integers (10_state.md R46). -/
structure Shape where
  rows : Half
  cols : Half
  deriving DecidableEq, Repr

/-- The shapes of the five matrix registers (10_state.md R46). -/
structure Shapes where
  m0 : Shape
  m1 : Shape
  m2 : Shape
  m3 : Shape
  enc : Shape
  deriving DecidableEq, Repr

/-- An array of the block: the locations written since reset, by rising key, with the value last written there.
A location not listed has never been written and reads as a free draw (10_state.md R66). -/
abbrev Store (α : Type) := List (Nat × α)

/-- Shard memory: the bytes `SH[s][o]` written since reset, by the address `s * 2^32 + o` (10_state.md R57). -/
abbrev Memory := List Host.Cell

/-- The architectural state (10_state.md R30) with the implementation parameters, and three fields of the model's own
(`draws`, `agenda`, `busData`). The constants `ID` and `CAP_*`, the windows and `CMD` have no storage, and the
read-only field tables are constant functions (`Machine.expTable`, `Machine.logTable`). -/
structure State where
  /-- The implementation parameters, which no step writes (00_scope.md R11, R12). -/
  params : Params
  /-- `STATUS` (10_state.md R35). -/
  status : Status
  /-- `PEND` (10_state.md R63). -/
  pend : Option Word
  /-- `INT_EN`: bit 0 `DONE_IE`, bit 1 `ACCERR_IE` (10_state.md R64). -/
  intEn : BitVec 2
  /-- `CFG_NDATA` (10_state.md R41). -/
  cfgNdata : Half
  /-- `CFG_NPARITY` (10_state.md R41). -/
  cfgNparity : Half
  /-- `ENG_NDATA` (10_state.md R40). -/
  engNdata : Half
  /-- `ENG_NPARITY` (10_state.md R40). -/
  engNparity : Half
  /-- `ARG_N` (10_state.md R42). -/
  argN : Half
  /-- `GF_A` (10_state.md R43). -/
  gfA : Half
  /-- `GF_B` (10_state.md R43). -/
  gfB : Half
  /-- `GF_N` (10_state.md R44). -/
  gfN : Word
  /-- `GF_R` (10_state.md R45). -/
  gfR : Half
  /-- `MAT_SEL` (10_state.md R48). -/
  matSel : MatReg
  /-- `M[m].rows`, `M[m].cols` (10_state.md R46). -/
  shapes : Shapes
  /-- `MAT_ROW` (10_state.md R50). -/
  matRow : Half
  /-- `MAT_COL` (10_state.md R50). -/
  matCol : Half
  /-- `M[m].el[r][c]`, by the key `m * 2^32 + r * 2^16 + c` (10_state.md R46). -/
  el : Store Half
  /-- `IDX_COUNT` (10_state.md R52). -/
  idxCount : Half
  /-- `IDX_PTR` (10_state.md R53). -/
  idxPtr : Half
  /-- `IDX[j]` (10_state.md R52). -/
  idx : Store Half
  /-- `SLOT_COUNT` (10_state.md R55). -/
  slotCount : Half
  /-- `SLOT_SEL` (10_state.md R56). -/
  slotSel : Half
  /-- `SLOT[s].len` (10_state.md R54). -/
  slotLen : Store Word
  /-- `SLOT[s].present` (10_state.md R54). -/
  slotPresent : Store Bool
  /-- `SH_SLOT` (10_state.md R58). -/
  shSlot : Half
  /-- `SH_OFF` (10_state.md R58). -/
  shOff : Word
  /-- `SH[s][o]` (10_state.md R57). -/
  sh : Memory
  /-- `TBL_SEL` (10_state.md R60). -/
  tblSel : BitVec 2
  /-- `TBL_IDX` (10_state.md R60). -/
  tblIdx : Half
  /-- The model's own: how many steps that may draw have run (log 2). -/
  draws : Nat
  /-- The model's own: whose turns come next, and what the host does in its own (log 5). -/
  agenda : List Turn
  /-- The model's own: the byte lanes that the last host read returned (log 8). -/
  busData : List Byte
  deriving DecidableEq, Repr

/-- `STATUS = 0` (10_state.md R65). -/
def Status.reset : Status := ⟨false, false, false, false, false, false, false, 0⟩

/-- Every shape `(0, 0)` (10_state.md R65). -/
def Shapes.reset : Shapes := ⟨⟨0, 0⟩, ⟨0, 0⟩, ⟨0, 0⟩, ⟨0, 0⟩, ⟨0, 0⟩⟩

/-- The state right after reset of a part with parameters `p` (10_state.md R65). -/
def State.resetOf (p : Params) : State where
  params := p
  status := Status.reset
  pend := none
  intEn := 0
  cfgNdata := 0
  cfgNparity := 0
  engNdata := 0
  engNparity := 0
  argN := 0
  gfA := 0
  gfB := 0
  gfN := 0
  gfR := 0
  matSel := .m0
  shapes := Shapes.reset
  matRow := 0
  matCol := 0
  el := []
  idxCount := 0
  idxPtr := 0
  idx := []
  slotCount := 0
  slotSel := 0
  slotLen := []
  slotPresent := []
  shSlot := 0
  shOff := 0
  sh := []
  tblSel := 0
  tblIdx := 0
  draws := 0
  agenda := []
  busData := []

/-- The state right after reset. DESIGN CHOICE: the parameters are those of the spec's test vectors, which the spec
calls example values only (00_scope.md R14; log 1). -/
def State.reset : State := State.resetOf Params.testVectors

end Sys2Proof.Machine
end

