-- ==== Sys2Proof/Machine/Flags.lean ====
section
/-! DEFINITION. The `STATUS` register: its word, the error codes, and what issue, completion, a host write and a
rejected access do to it; the interrupt output. -/

namespace Sys2Proof.Machine

/-- The error codes (60_exceptions.md R291). -/
def CmdError.code : CmdError → BitVec 4
  | .invalidShardCount => 1
  | .incorrectShardSize => 2
  | .tooManyShards => 3
  | .tooFewShardsPresent => 4
  | .divideByZero => 5
  | .matrixSingular => 6
  | .dimensionMismatch => 7
  | .illegalCommand => 8
  | .notConfigured => 9
  | .indexOutOfRange => 10
  | .capacityExceeded => 11

/-- The word with `b` at bit `k` and 0 elsewhere. -/
def bitAt (b : Bool) (k : Nat) : Word := (BitVec.ofBool b).setWidth 32 <<< k

/-- The word of `STATUS`, each field at its place; reserved bits read 0 (10_state.md R35). -/
def Status.word (t : Status) : Word :=
  bitAt t.busy 0 ||| bitAt t.done 1 ||| bitAt t.err 2 ||| bitAt t.verifyOk 3 ||| bitAt t.configured 4
    ||| bitAt t.engW16 5 ||| bitAt t.accErr 6 ||| t.errCode.setWidth 32 <<< 8

/-- What issue writes (40_command_lifecycle.md R150). -/
def Status.issued (t : Status) : Status := { t with busy := true, done := false, err := false, errCode := 0 }

/-- The error code of an outcome, 0 for success (60_exceptions.md R291). -/
def outcomeCode : Option CmdError → BitVec 4
  | none => 0
  | some e => e.code

/-- What completion writes (40_command_lifecycle.md R152). -/
def Status.completed (t : Status) (o : Option CmdError) : Status :=
  { t with busy := false, done := true, err := o.isSome, errCode := outcomeCode o }

/-- A host write of `v`: bits 1 and 6 clear `DONE` and `ACCERR`, the rest is ignored (10_state.md R36). -/
def Status.clearedBy (t : Status) (v : Word) : Status :=
  { t with done := t.done && !v.getLsbD 1, accErr := t.accErr && !v.getLsbD 6 }

/-- What a rejected access writes (20_memory.md R96). -/
def Status.rejected (t : Status) : Status := { t with accErr := true }

/-- `INT_EN.DONE_IE` (10_state.md R64). -/
def State.doneIe (s : State) : Bool := s.intEn.getLsbD 0

/-- `INT_EN.ACCERR_IE` (10_state.md R64). -/
def State.accErrIe (s : State) : Bool := s.intEn.getLsbD 1

/-- The interrupt output `IRQ` (60_exceptions.md R295). -/
def State.irq (s : State) : Bool := (s.status.done && s.doneIe) || (s.status.accErr && s.accErrIe)

end Sys2Proof.Machine
end

