-- ==== Sys2Proof/Machine/Field.lean ====
section
/-! DEFINITION. The field tables and the field-arithmetic functions (41_field_arith.md R170 to R179). An element is
held in 16 bits, as the tables and registers hold it; an element of width 8 is below 256. -/

namespace Sys2Proof.Machine

/-- `q = 2^w` (41_field_arith.md R170). -/
def fieldSize (w : Width) : Nat := 2 ^ w.bits

/-- `FIELD_LIMIT(w) = 2^w - 1` (00_scope.md R10). -/
def fieldLimit (w : Width) : Nat := 2 ^ w.bits - 1

/-- `P8 = 0x11D` and `P16 = 0x1100B` (00_scope.md R13). -/
def poly : Width → BitVec 17
  | .w8 => 0x11D
  | .w16 => 0x1100B

/-- The low `w` bits of a stored value, zero-extended (41_field_arith.md R180, 42_matrix_engine.md R201). -/
def truncTo (w : Width) (v : Half) : Half :=
  match w with
  | .w8 => (v.setWidth 8).setWidth 16
  | .w16 => v

/-- One step of the loop of 41_field_arith.md R172: `a << 1`, reduced by `P_w` when bit `w` is set. -/
def xtime (w : Width) (a : Half) : Half :=
  if (a.setWidth 17 <<< 1).getLsbD w.bits then ((a.setWidth 17 <<< 1) ^^^ poly w).setWidth 16
  else (a.setWidth 17 <<< 1).setWidth 16

/-- The loop of 41_field_arith.md R172 from bit `i` on, `n` bits to go, with `a` already shifted `i` times. -/
def clmulFrom (w : Width) (b : Half) : (n i : Nat) → (a r : Half) → Half
  | 0, _, _, r => r
  | n + 1, i, a, r => clmulFrom w b n (i + 1) (xtime w a) (if b.getLsbD i then r ^^^ a else r)

/-- `clmul_w(a, b)`: the product of two polynomials over GF(2), reduced modulo `P_w` (41_field_arith.md R172). It
is the meaning that the tables reproduce and no datapath of the block. -/
def clmul (w : Width) (a b : Half) : Half := clmulFrom w b w.bits 0 a 0

/-- `x^i` by repeated multiplication by `g = x`, from `a` on (41_field_arith.md R173). -/
def xpow (w : Width) : (i : Nat) → (a : Half) → Half
  | 0, a => a
  | i + 1, a => xpow w i (xtime w a)

/-- `EXP_w[i]` (41_field_arith.md R173), with `EXP_w[q-1] = 1`. -/
def expTable (w : Width) (i : Nat) : Half :=
  if i < fieldLimit w then xpow w i 1 else 1

/-- The first exponent `i` at which the powers of `g`, listed from `x = g^i` on, reach `a`; 0 if `n` of them do
not. -/
def logFrom (w : Width) (a : Half) : (n i : Nat) → (x : Half) → Nat
  | 0, _, _ => 0
  | n + 1, i, x => if x = a then i else logFrom w a n (i + 1) (xtime w x)

/-- `LOG_w[a]`: the `i` in `0 .. q-2` with `EXP_w[i] = a`, and `LOG_w[0] = 0` (41_field_arith.md R174). -/
def logTable (w : Width) (a : Half) : Nat :=
  if a = 0 then 0 else logFrom w a (fieldLimit w) 0 1

/-- `gf_add_w` (41_field_arith.md R175). -/
def gfAdd (a b : Half) : Half := a ^^^ b

/-- `gf_mul_w` (41_field_arith.md R176). -/
def gfMul (w : Width) (a b : Half) : Half :=
  if a = 0 ∨ b = 0 then 0 else expTable w ((logTable w a + logTable w b) % (fieldSize w - 1))

/-- `gf_inv_w` (41_field_arith.md R177). -/
def gfInv (w : Width) (a : Half) : Except CmdError Half :=
  if a = 0 then .error .divideByZero else .ok (expTable w ((fieldSize w - 1) - logTable w a))

/-- `gf_div_w` (41_field_arith.md R178). -/
def gfDiv (w : Width) (a b : Half) : Except CmdError Half :=
  match gfInv w b with
  | .error e => .error e
  | .ok c => .ok (gfMul w a c)

/-- `gf_pow_w` as the repeated product of 41_field_arith.md R179. -/
def gfPowIter (w : Width) (a : Half) : Nat → Half
  | 0 => 1
  | n + 1 => gfMul w (gfPowIter w a n) a

/-- `gf_pow_w` in the closed form that 41_field_arith.md R179 gives beside the repeated product (log 10). -/
def gfPow (w : Width) (a : Half) (n : Nat) : Half :=
  if n = 0 then 1 else if a = 0 then 0 else expTable w ((logTable w a * n) % (fieldSize w - 1))

/-- `Σ⊕_{k<n} f(k)` (00_scope.md R20). -/
def xorSum : (n : Nat) → (f : Nat → Half) → Half
  | 0, _ => 0
  | n + 1, f => xorSum n f ^^^ f n

end Sys2Proof.Machine
end

