-- ==== Sys2Proof/Machine/MatrixValue.lean ====
section
/-! DEFINITION. Matrix values and the matrix functions (42_matrix_engine.md R200 to R209), and the encoding-matrix
builder (43_encoding_matrix_builder.md R230 to R235). -/

namespace Sys2Proof.Machine

/-- A matrix value: a shape and its elements, row by row (42_matrix_engine.md R200). -/
structure Mat where
  rows : Nat
  cols : Nat
  el : List (List Half)
  deriving DecidableEq, Repr

/-- Element `[r][c]` of a list of rows; 0 outside it, where no rule reads. -/
def cell (W : List (List Half)) (r c : Nat) : Half := (W.getD r []).getD c 0

/-- `A[r][c]`. -/
def Mat.at (A : Mat) (r c : Nat) : Half := cell A.el r c

/-- The `n × m` list of rows with `f r c` at `[r][c]`. -/
def tabulate (n m : Nat) (f : Nat → Nat → Half) : List (List Half) :=
  (List.range n).map fun r => (List.range m).map fun c => f r c

/-- The `n × m` matrix with `f r c` at `[r][c]`. -/
def Mat.ofFn (n m : Nat) (f : Nat → Nat → Half) : Mat := ⟨n, m, tabulate n m f⟩

/-- `identity(n)` (42_matrix_engine.md R202). -/
def identity (n : Nat) : Mat := Mat.ofFn n n fun r c => if r = c then 1 else 0

/-- The row of `A` times the column `x`: `Σ⊕_{k<n} gf_mul_w(A[r][k], x[k])` (42_matrix_engine.md R203). -/
def dot (w : Width) (n : Nat) (row x : Nat → Half) : Half := xorSum n fun k => gfMul w (row k) (x k)

/-- `mat_mul_w(A, B)` (42_matrix_engine.md R203). -/
def matMul (w : Width) (A B : Mat) : Except CmdError Mat :=
  if A.cols ≠ B.rows then .error .dimensionMismatch
  else .ok (Mat.ofFn A.rows B.cols fun i j => dot w A.cols (fun k => A.at i k) (fun k => B.at k j))

/-- `submatrix(A, [i_0, …])` (42_matrix_engine.md R204). -/
def submatrix (A : Mat) (ix : List Nat) : Except CmdError Mat :=
  if ix.any (fun i => A.rows ≤ i) then .error .indexOutOfRange
  else .ok (Mat.ofFn ix.length A.cols fun j c => A.at (ix.getD j 0) c)

/-- The augmented matrix `[A | identity(n)]` (42_matrix_engine.md R205). -/
def augment (A : Mat) (n : Nat) : List (List Half) :=
  tabulate n (2 * n) fun r j => if j < n then A.at r j else (identity n).at r (j - n)

/-- The pivot row of column `c`: the least `r` with `c ≤ r < n` and `Wk[r][c] ≠ 0` (42_matrix_engine.md R206). -/
def pivotRow (n c : Nat) (W : List (List Half)) : Option Nat :=
  (List.range n).find? fun r => decide (c ≤ r) && cell W r c != 0

/-- Rows `p` and `c` exchanged (42_matrix_engine.md R205). -/
def swapRows (n p c : Nat) (W : List (List Half)) : List (List Half) :=
  tabulate n (2 * n) fun r j => cell W (if r = c then p else if r = p then c else r) j

/-- Row `c` multiplied by `f` (42_matrix_engine.md R207). -/
def scaleRow (w : Width) (n c : Nat) (f : Half) (W : List (List Half)) : List (List Half) :=
  tabulate n (2 * n) fun r j => if r = c then gfMul w f (cell W c j) else cell W r j

/-- Column `c` cleared in every row but row `c` (42_matrix_engine.md R208). -/
def eliminate (w : Width) (n c : Nat) (W : List (List Half)) : List (List Half) :=
  tabulate n (2 * n) fun r j =>
    if r = c ∨ cell W r c = 0 then cell W r j else cell W r j ^^^ gfMul w (cell W r c) (cell W c j)

/-- The body of the loop over the pivot columns (42_matrix_engine.md R205). -/
def gaussStep (w : Width) (n c : Nat) (W : List (List Half)) : Except CmdError (List (List Half)) :=
  match pivotRow n c W with
  | none => .error .matrixSingular
  | some p =>
    match gfInv w (cell (swapRows n p c W) c c) with
    | .error e => .error e
    | .ok f => .ok (eliminate w n c (scaleRow w n c f (swapRows n p c W)))

/-- The loop over the pivot columns from column `c` on, `k` columns to go (42_matrix_engine.md R205). -/
def gaussFrom (w : Width) (n : Nat) : (k c : Nat) → (W : List (List Half)) → Except CmdError (List (List Half))
  | 0, _, W => .ok W
  | k + 1, c, W =>
    match gaussStep w n c W with
    | .error e => .error e
    | .ok W' => gaussFrom w n k (c + 1) W'

/-- `mat_inv_w(A)` (42_matrix_engine.md R205). -/
def matInv (w : Width) (A : Mat) : Except CmdError Mat :=
  if A.rows ≠ A.cols then .error .dimensionMismatch
  else
    match gaussFrom w A.rows A.rows 0 (augment A A.rows) with
    | .error e => .error e
    | .ok W => .ok (Mat.ofFn A.rows A.rows fun r c => cell W r (A.rows + c))

/-- The Vandermonde matrix `V[r][c] = gf_pow_w(r + 1, c)` (43_encoding_matrix_builder.md R231, R232). -/
def vandermonde (w : Width) (nTotal nData : Nat) : Mat :=
  Mat.ofFn nTotal nData fun r c => gfPow w (BitVec.ofNat 16 (r + 1)) c

/-- `build_w(n_data, n_parity)` (43_encoding_matrix_builder.md R233). -/
def build (w : Width) (nData nParity : Nat) : Except CmdError Mat :=
  match submatrix (vandermonde w (nData + nParity) nData) (List.range nData) with
  | .error e => .error e
  | .ok T =>
    match matInv w T with
    | .error e => .error e
    | .ok R => matMul w (vandermonde w (nData + nParity) nData) R

/-- The validation of the counts, in the order of 43_encoding_matrix_builder.md R235 (44_rs_engine.md R250). -/
def countCheck (w : Width) (nMax nData nParity : Nat) : Option CmdError :=
  if nData = 0 then some .invalidShardCount
  else if fieldLimit w < nData + nParity then some .tooManyShards
  else if nMax < nData + nParity then some .tooManyShards
  else none

end Sys2Proof.Machine
end

