-- ==== Sys2Proof/Machine/Ops.lean ====
section
/-! DEFINITION. The shared operations: the arrays, reads with free draws, symbols, writing a matrix, issue,
completion (the one place that reports a command error), a rejected access, and the reset step. -/

namespace Sys2Proof.Machine

/-! ### Arrays -/

/-- The canonical form of an array: keys strictly rising. -/
abbrev Store.wf {α : Type} (m : Store α) : Prop := m.Pairwise fun a b => a.1 < b.1

/-- The canonical form of shard memory: addresses strictly rising. Every listed byte has been written, and an
unlisted address holds no value, so no listed byte equals what an unlisted address reads as (log 2). -/
abbrev Memory.wf (m : Memory) : Prop := m.Pairwise fun a b => a.1 < b.1

/-- The value last written at key `k` since reset, if any (10_state.md R66). -/
def Store.get? {α : Type} (m : Store α) (k : Nat) : Option α :=
  match m with
  | [] => none
  | (j, v) :: rest => if k = j then some v else Store.get? rest k

/-- `v` written at key `k`. -/
def Store.set {α : Type} (m : Store α) (k : Nat) (v : α) : Store α :=
  match m with
  | [] => [(k, v)]
  | (j, u) :: rest =>
    if k < j then (k, v) :: (j, u) :: rest
    else if k = j then (k, v) :: rest
    else (j, u) :: Store.set rest k v

/-- A list of writes, in order. -/
def Store.setAll {α : Type} (m : Store α) (l : List (Nat × α)) : Store α :=
  l.foldl (fun acc kv => Store.set acc kv.1 kv.2) m

/-- The key of `M[m].el[r][c]`. -/
def elKey (m : MatReg) (r c : Nat) : Nat := m.num * 2 ^ 32 + r * 2 ^ 16 + c

/-- The address of `SH[s][o]`. -/
def shKey (slot o : Nat) : Nat := slot * 2 ^ 32 + o

/-! ### Reads with free draws (10_state.md R66)

`use` tells apart the reads of one location within one step (log 3). -/

/-- A read of `M[m].el[r][c]`. -/
def State.elAt (s : State) (use : List Nat) (m : MatReg) (r c : Nat) : Half :=
  (Store.get? s.el (elKey m r c)).getD ((Config.freeValue s.draws use (.el m.num r c)).setWidth 16)

/-- A read of `IDX[j]`. -/
def State.idxAt (s : State) (use : List Nat) (j : Nat) : Half :=
  (Store.get? s.idx j).getD ((Config.freeValue s.draws use (.idx j)).setWidth 16)

/-- A read of `SLOT[k].len`. DEDUCED: a draw keeps the bound `len ≤ SHARD_CAP` of 10_state.md R54 (log 4). -/
def State.slotLenAt (s : State) (use : List Nat) (k : Nat) : Word :=
  (Store.get? s.slotLen k).getD
    (BitVec.ofNat 32 ((Config.freeValue s.draws use (.slotLen k)).toNat % (s.params.shardCap + 1)))

/-- A read of `SLOT[k].present`. -/
def State.slotPresentAt (s : State) (use : List Nat) (k : Nat) : Bool :=
  (Store.get? s.slotPresent k).getD ((Config.freeValue s.draws use (.slotPresent k)).getLsbD 0)

/-- A read of `SH[slot][o]`. -/
def State.shardAt (s : State) (use : List Nat) (slot o : Nat) : Byte :=
  (Store.get? s.sh (shKey slot o)).getD ((Config.freeValue s.draws use (.shard slot o)).setWidth 8)

/-- The byte last written at `SH[slot][o]` since reset, if any: the plain content of shard memory, without a
draw. -/
def State.byte? (s : State) (slot o : Nat) : Option Byte := Store.get? s.sh (shKey slot o)

/-! ### Symbols -/

/-- `MemRead((slot, o), n)`, little-endian (00_scope.md R17). -/
def State.memRead (s : State) (use : List Nat) (slot : Nat) : (o n : Nat) → Half
  | _, 0 => 0
  | o, n + 1 => (s.shardAt use slot o).setWidth 16 ||| (s.memRead use slot (o + 1) n <<< 8)

/-- The bytes that `MemWrite((slot, o), n, v)` writes, little-endian (00_scope.md R17). -/
def memWrite (slot : Nat) : (o n : Nat) → (v : Half) → List Host.Cell
  | _, 0, _ => []
  | o, n + 1, v => (shKey slot o, v.setWidth 8) :: memWrite slot (o + 1) n (v >>> 8)

/-- The bytes of a symbol, `b = w / 8` (00_scope.md R18). -/
def symBytes (w : Width) : Nat := w.bits / 8

/-- `sym_w(slot, t)` (00_scope.md R18, 20_memory.md R105). -/
def State.symAt (s : State) (w : Width) (use : List Nat) (slot t : Nat) : Half :=
  s.memRead use slot (symBytes w * t) (symBytes w)

/-- The bytes that `setsym_w(slot, t, v)` writes for every symbol `t < n` of a shard (00_scope.md R18). -/
def shardCells (w : Width) (slot n : Nat) (f : Nat → Half) : List Host.Cell :=
  (List.range n).flatMap fun t => memWrite slot (symBytes w * t) (symBytes w) (f t)

/-! ### Matrix registers -/

/-- The shape of `M[m]`. -/
def Shapes.get (t : Shapes) (m : MatReg) : Shape :=
  match m with
  | .m0 => t.m0
  | .m1 => t.m1
  | .m2 => t.m2
  | .m3 => t.m3
  | .enc => t.enc

/-- The shape of `M[m]` replaced. -/
def Shapes.set (t : Shapes) (m : MatReg) (x : Shape) : Shapes :=
  match m with
  | .m0 => { t with m0 := x }
  | .m1 => { t with m1 := x }
  | .m2 => { t with m2 := x }
  | .m3 => { t with m3 := x }
  | .enc => { t with enc := x }

/-- The element writes of a result `R` into `M[m]`: the positions inside its shape (10_state.md R47). -/
def matCells (m : MatReg) (R : Mat) : List (Nat × Half) :=
  (List.range R.rows).flatMap fun r => (List.range R.cols).map fun c => (elKey m r c, R.at r c)

/-- A matrix result written into `M[m]` (10_state.md R47). -/
def State.writeMat (s : State) (m : MatReg) (R : Mat) : State :=
  { s with
    shapes := s.shapes.set m ⟨BitVec.ofNat 16 R.rows, BitVec.ofNat 16 R.cols⟩
    el := Store.setAll s.el (matCells m R) }

/-! ### Other writes of the commands -/

/-- `GF_R <- r` (41_field_arith.md R180). -/
def State.setGfR (s : State) (r : Half) : State := { s with gfR := r }

/-- `STATUS.VERIFY_OK <- b` (44_rs_engine.md R266). -/
def State.setVerifyOk (s : State) (b : Bool) : State := { s with status := { s.status with verifyOk := b } }

/-- The engine instance, without its matrix (44_rs_engine.md R253). -/
def State.setEngine (s : State) (w : Width) (nData nParity : Half) : State :=
  { s with
    engNdata := nData
    engNparity := nParity
    status := { s.status with engW16 := decide (w = .w16), configured := true } }

/-- Bytes written to shard memory. -/
def State.writeShards (s : State) (l : List Host.Cell) : State := { s with sh := Store.setAll s.sh l }

/-- Every slot of `l` marked present with length `len` (44_rs_engine.md R280). -/
def State.markPresent (s : State) (l : List Nat) (len : Word) : State :=
  { s with
    slotLen := Store.setAll s.slotLen (l.map fun k => (k, len))
    slotPresent := Store.setAll s.slotPresent (l.map fun k => (k, true)) }

/-! ### Issue, completion, rejection, reset -/

/-- Issue of the word `v` (40_command_lifecycle.md R150). -/
def State.issue (s : State) (v : Word) : State := { s with pend := some v, status := s.status.issued }

/-- What completion writes beside the command's own writes (40_command_lifecycle.md R152). The draw counter is the
model's own and moves on at every completion (log 2). -/
def State.finish (s : State) (o : Option CmdError) : State :=
  { s with status := s.status.completed o, pend := none, draws := s.draws + 1 }

/-- The state after a command issued in `s` ends: with the command's writes if it succeeds, and with none of them if
it raises an error (40_command_lifecycle.md R152, R154; 00_scope.md R19). -/
def State.conclude (s : State) : Except CmdError State → State
  | .ok t => t.finish none
  | .error e => s.finish (some e)

/-- The completion of a command, as the outcome of a step. -/
def complete (s : State) (r : Except CmdError State) : Host.Outcome State Fault Refusal := .next (s.conclude r)

/-- A rejected access (20_memory.md R96). -/
def State.reject (s : State) : State := { s with status := s.status.rejected }

/-- The reset step: every piece of state at its reset value (70_reset_and_hazards.md R320). The parameters are not
state, and the model's own fields keep their values, the draw counter moving on (log 2, log 5, log 8). -/
def State.resetStep (s : State) : State :=
  { State.resetOf s.params with draws := s.draws + 1, agenda := s.agenda, busData := s.busData }

end Sys2Proof.Machine
end

