-- ==== Sys2Proof/Machine/Operands.lean ====
section
/-! DEFINITION. The operands of the commands: field operands, matrix values, the index list, the counts, and the
shard set with the checks that the engine commands share. -/

namespace Sys2Proof.Machine

/-- `a = GF_A[w-1:0]` (41_field_arith.md R180). -/
def State.opA (s : State) (w : Width) : Half := truncTo w s.gfA

/-- `b = GF_B[w-1:0]` (41_field_arith.md R180). -/
def State.opB (s : State) (w : Width) : Half := truncTo w s.gfB

/-- `M[m]` as a value, its stored 16-bit elements unchanged (42_matrix_engine.md R200). DEDUCED: a command reads each
element of an operand once; `k` numbers the operand (log 3). -/
def State.matRaw (s : State) (k : Nat) (m : MatReg) : Mat :=
  Mat.ofFn (s.shapes.get m).rows.toNat (s.shapes.get m).cols.toNat fun r c => s.elAt [k] m r c

/-- `M[m]` as a value read at width `w` (42_matrix_engine.md R201). -/
def State.matVal (s : State) (w : Width) (k : Nat) (m : MatReg) : Mat :=
  Mat.ofFn (s.shapes.get m).rows.toNat (s.shapes.get m).cols.toNat fun r c => truncTo w (s.elAt [k] m r c)

/-- `[IDX[0], …, IDX[IDX_COUNT-1]]` (42_matrix_engine.md R215). -/
def State.idxList (s : State) : List Nat := (List.range s.idxCount.toNat).map fun j => (s.idxAt [0] j).toNat

/-- `w_eng` (10_state.md R40). -/
def State.engWidth (s : State) : Width := if s.status.engW16 then .w16 else .w8

/-- `n_data` of the engine instance (44_rs_engine.md R245). -/
def State.nData (s : State) : Nat := s.engNdata.toNat

/-- `n_parity` of the engine instance (44_rs_engine.md R245). -/
def State.nParity (s : State) : Nat := s.engNparity.toNat

/-- `n_total` of the engine instance (44_rs_engine.md R245). -/
def State.nTotal (s : State) : Nat := s.nData + s.nParity

/-- `E[r][c]`, an element of `M[ENC]` read at the engine width (44_rs_engine.md R245). -/
def State.encEl (s : State) (r c : Nat) : Half := truncTo s.engWidth (s.elAt [0] .enc r c)

/-- `E = M[ENC]`, with shape `n_total × n_data` (44_rs_engine.md R245). -/
def State.encMat (s : State) : Mat := Mat.ofFn s.nTotal s.nData s.encEl

/-- The data vector `d(t)`, read for the parity row `p` (44_rs_engine.md R249). -/
def State.dataSym (s : State) (p t c : Nat) : Half := s.symAt s.engWidth [p] c t

/-- `parity(p, t)` (44_rs_engine.md R249). -/
def State.parity (s : State) (p t : Nat) : Half :=
  dot s.engWidth s.nData (fun c => s.encEl (s.nData + p) c) (fun c => s.dataSym p t c)

/-- The checks that come first in every engine command (44_rs_engine.md R246, R247). -/
def State.engineCheck (s : State) : Option CmdError :=
  if s.status.configured = false then some .notConfigured
  else if s.slotCount.toNat ≠ s.nTotal then some .invalidShardCount
  else none

/-- A length that no shard set may have: 0, or odd with 16-bit symbols (44_rs_engine.md R258 (b), (c)). -/
def badLength (w : Width) (len : Nat) : Bool := len == 0 || (w == .w16 && len % 2 == 1)

/-- `L` for encode and verify: `SLOT[0].len` (44_rs_engine.md R258). -/
def State.setLen (s : State) : Nat := (s.slotLenAt [0] 0).toNat

/-- The checks of encode and verify, in the order of 44_rs_engine.md R260: R246, R247, R256, R258. -/
def State.setCheck (s : State) : Option CmdError :=
  match s.engineCheck with
  | some e => some e
  | none =>
    if (List.range s.nTotal).any (fun k => !s.slotPresentAt [0] k) then some .invalidShardCount
    else if (List.range s.nTotal).any (fun k => decide ((s.slotLenAt [1] k).toNat ≠ s.setLen))
        || badLength s.engWidth s.setLen then some .incorrectShardSize
    else none

/-- The number of symbols of a shard of `len` bytes, `T = L / b` (44_rs_engine.md R258). -/
def State.symCount (s : State) (len : Nat) : Nat := len / symBytes s.engWidth

/-- The present set `P` of reconstruct, in ascending order (44_rs_engine.md R270). -/
def State.presentSet (s : State) : List Nat := (List.range s.nTotal).filter fun k => s.slotPresentAt [0] k

/-- The absent set `A` of reconstruct, in ascending order (44_rs_engine.md R270). -/
def State.absentSet (s : State) : List Nat := (List.range s.nTotal).filter fun k => !s.slotPresentAt [0] k

/-- `L` for reconstruct: `SLOT[P[0]].len` (44_rs_engine.md R274); 0 if `P` is empty, where no rule reads it. -/
def State.recLen (s : State) : Nat :=
  match s.presentSet with
  | [] => 0
  | p :: _ => (s.slotLenAt [0] p).toNat

/-- The length check of reconstruct, which an empty `P` passes (44_rs_engine.md R274). -/
def State.recLenBad (s : State) : Bool :=
  !s.presentSet.isEmpty &&
    (s.presentSet.any (fun k => decide ((s.slotLenAt [1] k).toNat ≠ s.recLen)) || badLength s.engWidth s.recLen)

/-- The checks of reconstruct, in the order of 44_rs_engine.md R275: R246, R247, R274, R276. -/
def State.recCheck (s : State) : Option CmdError :=
  match s.engineCheck with
  | some e => some e
  | none =>
    if s.recLenBad then some .incorrectShardSize
    else if s.nParity < s.absentSet.length then some .tooFewShardsPresent
    else none

/-- The selected slots `S`: the `n_data` lowest-indexed present ones (44_rs_engine.md R277). -/
def State.selected (s : State) : List Nat := s.presentSet.take s.nData

end Sys2Proof.Machine
end

