-- ==== Sys2Proof/Machine/Bus.lean ====
section
/-! DEFINITION. The host bus: the register map (10_state.md R31), the busy lock (20_memory.md R97), and every accepted
read and write (10_state.md R32 to R64, 20_memory.md R90 to R103). A read or write that answers `none` is rejected. -/

namespace Sys2Proof.Machine

/-- The offsets of the register map (10_state.md R31). -/
def regOffset : Reg → BitVec 8
  | .id => 0x00
  | .capNmax => 0x04
  | .capShcap => 0x08
  | .status => 0x0C
  | .cmd => 0x10
  | .intEn => 0x14
  | .cfgNdata => 0x18
  | .cfgNparity => 0x1C
  | .engNdata => 0x20
  | .engNparity => 0x24
  | .argN => 0x28
  | .gfA => 0x30
  | .gfB => 0x34
  | .gfN => 0x38
  | .gfR => 0x3C
  | .matSel => 0x40
  | .matShape => 0x44
  | .matRow => 0x48
  | .matCol => 0x4C
  | .matData => 0x50
  | .idxCount => 0x60
  | .idxPtr => 0x64
  | .idxData => 0x68
  | .slotCount => 0x70
  | .slotSel => 0x74
  | .slotLen => 0x78
  | .slotPresent => 0x7C
  | .shSlot => 0x80
  | .shOff => 0x84
  | .shData => 0x88
  | .tblSel => 0x90
  | .tblIdx => 0x94
  | .tblData => 0x98

/-- The registers of the map, in its order (10_state.md R31). -/
def allRegs : List Reg :=
  [.id, .capNmax, .capShcap, .status, .cmd, .intEn, .cfgNdata, .cfgNparity, .engNdata, .engNparity, .argN]
    ++ [.gfA, .gfB, .gfN, .gfR, .matSel, .matShape, .matRow, .matCol, .matData, .idxCount, .idxPtr, .idxData]
    ++ [.slotCount, .slotSel, .slotLen, .slotPresent, .shSlot, .shOff, .shData, .tblSel, .tblIdx, .tblData]

/-- The register at an offset; none at a reserved or unaligned one (10_state.md R61, 20_memory.md R92). -/
def regAt (off : BitVec 8) : Option Reg := allRegs.find? fun r => regOffset r == off

/-- The identification value of `ID` (10_state.md R32). -/
def idValue : Word := 0x45435254

/-- The tables that `TBL_SEL` selects: width, and whether it is the exponent table (10_state.md R60). -/
def tableOf (sel : BitVec 2) : Width × Bool :=
  match sel.toNat with
  | 0 => (.w8, false)
  | 1 => (.w8, true)
  | 2 => (.w16, false)
  | _ => (.w16, true)

/-- Entry `i` of a table (20_memory.md R103). -/
def tableEntry (t : Width × Bool) (i : Half) : Half :=
  if t.2 then expTable t.1 i.toNat else BitVec.ofNat 16 (logTable t.1 i)

/-- The matrix register of a `MAT_SEL` value in range (10_state.md R48). -/
def matRegOfNat : Nat → Option MatReg
  | 0 => some .m0
  | 1 => some .m1
  | 2 => some .m2
  | 3 => some .m3
  | 4 => some .enc
  | _ => none

/-- Accesses accepted while busy: reads of these, and writes of `STATUS` and `INT_EN` (20_memory.md R97). -/
def openWhileBusy (write : Bool) : Reg → Bool
  | .id => !write
  | .capNmax => !write
  | .capShcap => !write
  | .status => true
  | .intEn => true
  | _ => false

/-! ### Windows -/

/-- A read of `MAT_DATA` (20_memory.md R99). -/
def readMatData (s : State) : Option (Word × State) :=
  if s.matRow.toNat < s.params.nMax ∧ s.matCol.toNat < s.params.nMax then
    some ((s.elAt [] s.matSel s.matRow.toNat s.matCol.toNat).setWidth 32,
      { s with matCol := s.matCol + 1, draws := s.draws + 1 })
  else none

/-- A write of `MAT_DATA` (20_memory.md R99). -/
def writeMatData (v : Word) (s : State) : Option State :=
  if s.matSel ≠ .enc ∧ s.matRow.toNat < s.params.nMax ∧ s.matCol.toNat < s.params.nMax then
    some { s with
      el := Store.set s.el (elKey s.matSel s.matRow.toNat s.matCol.toNat) (v.setWidth 16)
      matCol := s.matCol + 1 }
  else none

/-- A read of `IDX_DATA` (20_memory.md R100). -/
def readIdxData (s : State) : Option (Word × State) :=
  if s.idxPtr.toNat < s.params.nMax then
    some ((s.idxAt [] s.idxPtr.toNat).setWidth 32, { s with idxPtr := s.idxPtr + 1, draws := s.draws + 1 })
  else none

/-- A write of `IDX_DATA` (20_memory.md R100). -/
def writeIdxData (v : Word) (s : State) : Option State :=
  if s.idxPtr.toNat < s.params.nMax then
    some { s with idx := Store.set s.idx s.idxPtr.toNat (v.setWidth 16), idxPtr := s.idxPtr + 1 }
  else none

/-- A read of `SLOT_LEN` (20_memory.md R102). -/
def readSlotLen (s : State) : Option (Word × State) :=
  if s.slotSel.toNat < s.params.nMax then
    some (s.slotLenAt [] s.slotSel.toNat, { s with draws := s.draws + 1 })
  else none

/-- A write of `SLOT_LEN` (20_memory.md R102). -/
def writeSlotLen (v : Word) (s : State) : Option State :=
  if s.slotSel.toNat < s.params.nMax ∧ v.toNat ≤ s.params.shardCap then
    some { s with slotLen := Store.set s.slotLen s.slotSel.toNat v }
  else none

/-- A read of `SLOT_PRESENT` (20_memory.md R102). -/
def readSlotPresent (s : State) : Option (Word × State) :=
  if s.slotSel.toNat < s.params.nMax then
    some ((BitVec.ofBool (s.slotPresentAt [] s.slotSel.toNat)).setWidth 32, { s with draws := s.draws + 1 })
  else none

/-- A write of `SLOT_PRESENT` (20_memory.md R102). -/
def writeSlotPresent (v : Word) (s : State) : Option State :=
  if s.slotSel.toNat < s.params.nMax then
    some { s with slotPresent := Store.set s.slotPresent s.slotSel.toNat (v.getLsbD 0) }
  else none

/-- A read of `SH_DATA` (20_memory.md R101). -/
def readShData (s : State) : Option (Word × State) :=
  if s.shSlot.toNat < s.params.nMax ∧ s.shOff.toNat < s.params.shardCap then
    some ((s.shardAt [] s.shSlot.toNat s.shOff.toNat).setWidth 32,
      { s with shOff := s.shOff + 1, draws := s.draws + 1 })
  else none

/-- A write of `SH_DATA` (20_memory.md R101). -/
def writeShData (v : Word) (s : State) : Option State :=
  if s.shSlot.toNat < s.params.nMax ∧ s.shOff.toNat < s.params.shardCap then
    some { s with
      sh := Store.set s.sh (shKey s.shSlot.toNat s.shOff.toNat) (v.setWidth 8)
      shOff := s.shOff + 1 }
  else none

/-- A read of `TBL_DATA` (20_memory.md R103). -/
def readTblData (s : State) : Option (Word × State) :=
  if s.tblIdx.toNat < fieldSize (tableOf s.tblSel).1 then
    some ((tableEntry (tableOf s.tblSel) s.tblIdx).setWidth 32, { s with tblIdx := s.tblIdx + 1 })
  else none

/-- A write of `MAT_SHAPE` (10_state.md R49). -/
def writeMatShape (v : Word) (s : State) : Option State :=
  if s.matSel ≠ .enc ∧ (v.extractLsb' 16 16).toNat ≤ s.params.nMax ∧ (v.extractLsb' 0 16).toNat ≤ s.params.nMax then
    some { s with shapes := s.shapes.set s.matSel ⟨v.extractLsb' 16 16, v.extractLsb' 0 16⟩ }
  else none

/-- The word of `MAT_SHAPE`: rows in the high half, columns in the low half (10_state.md R49). -/
def shapeWord (x : Shape) : Word := x.rows.setWidth 32 <<< 16 ||| x.cols.setWidth 32

/-! ### Registers -/

/-- A read of a register that the busy lock does not reject: the value and the state after its side effect. -/
def readReg (r : Reg) (s : State) : Option (Word × State) :=
  match r with
  | .id => some (idValue, s)
  | .capNmax => some (BitVec.ofNat 32 s.params.nMax, s)
  | .capShcap => some (BitVec.ofNat 32 s.params.shardCap, s)
  | .status => some (s.status.word, s)
  | .cmd => some (0, s)
  | .intEn => some (s.intEn.setWidth 32, s)
  | .cfgNdata => some (s.cfgNdata.setWidth 32, s)
  | .cfgNparity => some (s.cfgNparity.setWidth 32, s)
  | .engNdata => some (s.engNdata.setWidth 32, s)
  | .engNparity => some (s.engNparity.setWidth 32, s)
  | .argN => some (s.argN.setWidth 32, s)
  | .gfA => some (s.gfA.setWidth 32, s)
  | .gfB => some (s.gfB.setWidth 32, s)
  | .gfN => some (s.gfN, s)
  | .gfR => some (s.gfR.setWidth 32, s)
  | .matSel => some (BitVec.ofNat 32 s.matSel.num, s)
  | .matShape => some (shapeWord (s.shapes.get s.matSel), s)
  | .matRow => some (s.matRow.setWidth 32, s)
  | .matCol => some (s.matCol.setWidth 32, s)
  | .matData => readMatData s
  | .idxCount => some (s.idxCount.setWidth 32, s)
  | .idxPtr => some (s.idxPtr.setWidth 32, s)
  | .idxData => readIdxData s
  | .slotCount => some (s.slotCount.setWidth 32, s)
  | .slotSel => some (s.slotSel.setWidth 32, s)
  | .slotLen => readSlotLen s
  | .slotPresent => readSlotPresent s
  | .shSlot => some (s.shSlot.setWidth 32, s)
  | .shOff => some (s.shOff, s)
  | .shData => readShData s
  | .tblSel => some (s.tblSel.setWidth 32, s)
  | .tblIdx => some (s.tblIdx.setWidth 32, s)
  | .tblData => readTblData s

/-- A write of `v` to a register that the busy lock does not reject: plain registers store the low bits, range-checked
ones reject a value out of range, read-only ones reject every write (10_state.md R62). -/
def writeReg (r : Reg) (v : Word) (s : State) : Option State :=
  match r with
  | .id => none
  | .capNmax => none
  | .capShcap => none
  | .status => some { s with status := s.status.clearedBy v }
  | .cmd => some (s.issue v)
  | .intEn => some { s with intEn := v.setWidth 2 }
  | .cfgNdata => some { s with cfgNdata := v.setWidth 16 }
  | .cfgNparity => some { s with cfgNparity := v.setWidth 16 }
  | .engNdata => none
  | .engNparity => none
  | .argN => some { s with argN := v.setWidth 16 }
  | .gfA => some { s with gfA := v.setWidth 16 }
  | .gfB => some { s with gfB := v.setWidth 16 }
  | .gfN => some { s with gfN := v }
  | .gfR => none
  | .matSel => (matRegOfNat v.toNat).map fun m => { s with matSel := m }
  | .matShape => writeMatShape v s
  | .matRow => some { s with matRow := v.setWidth 16 }
  | .matCol => some { s with matCol := v.setWidth 16 }
  | .matData => writeMatData v s
  | .idxCount => if v.toNat ≤ s.params.nMax then some { s with idxCount := v.setWidth 16 } else none
  | .idxPtr => some { s with idxPtr := v.setWidth 16 }
  | .idxData => writeIdxData v s
  | .slotCount => if v.toNat ≤ s.params.nMax then some { s with slotCount := v.setWidth 16 } else none
  | .slotSel => some { s with slotSel := v.setWidth 16 }
  | .slotLen => writeSlotLen v s
  | .slotPresent => writeSlotPresent v s
  | .shSlot => some { s with shSlot := v.setWidth 16 }
  | .shOff => some { s with shOff := v }
  | .shData => writeShData v s
  | .tblSel => some { s with tblSel := v.setWidth 2 }
  | .tblIdx => some { s with tblIdx := v.setWidth 16 }
  | .tblData => none

/-! ### Bus transactions -/

/-- The busy lock: while `BUSY = 1` only the accesses of 20_memory.md R97 pass. -/
def lockedOut (write : Bool) (r : Reg) (s : State) : Bool := s.status.busy && !openWhileBusy write r

/-- `BusRead(off)` of 32 bits: the value returned and the state after it; a rejected read returns 0 and sets `ACCERR`
(20_memory.md R90, R96). -/
def busRead (off : BitVec 8) (s : State) : Word × State :=
  match regAt off with
  | none => (0, s.reject)
  | some r =>
    if lockedOut false r s then (0, s.reject)
    else match readReg r s with
      | none => (0, s.reject)
      | some a => a

/-- `BusWrite(off, v)` of 32 bits: the state after it; a rejected write only sets `ACCERR` (20_memory.md R90,
R96). -/
def busWrite (off : BitVec 8) (v : Word) (s : State) : State :=
  match regAt off with
  | none => s.reject
  | some r =>
    if lockedOut true r s then s.reject
    else match writeReg r v s with
      | none => s.reject
      | some t => t

/-- The byte lanes of a bus word: byte address `off + k` carries bits `8k+7:8k` (20_memory.md R91). -/
def lanesOf (v : Word) : List Byte :=
  [v.extractLsb' 0 8, v.extractLsb' 8 8, v.extractLsb' 16 8, v.extractLsb' 24 8]

/-- The 32-bit word on four byte lanes, lowest address first; none for an access of another size
(20_memory.md R91, R92). -/
def wordOfLanes : List Byte → Option Word
  | [b0, b1, b2, b3] =>
    some (b0.setWidth 32 ||| b1.setWidth 32 <<< 8 ||| b2.setWidth 32 <<< 16 ||| b3.setWidth 32 <<< 24)
  | _ => none

/-- The offset that a platform address has in the block, if it is inside it (20_memory.md R90, R109). -/
def blockOffset (p : Params) (addr : Nat) : Option (BitVec 8) :=
  if p.base ≤ addr ∧ addr < p.base + 256 then some (BitVec.ofNat 8 addr) else none

end Sys2Proof.Machine
end

