-- ==== Sys2Proof/Machine/Control.lean ====
section
/-! DEFINITION. The meaning of NOP (40_command_lifecycle.md). -/

namespace Sys2Proof.Machine

/-- `NOP` (40_command_lifecycle.md R157). -/
def execNop (s : State) : Host.Outcome State Fault Refusal := complete s (.ok s)

end Sys2Proof.Machine
end

