-- ==== Sys2Proof/Machine/FieldArith.lean ====
section
/-! DEFINITION. The meanings of the field-arithmetic commands (41_field_arith.md R180 to R185). -/

namespace Sys2Proof.Machine

/-- A field result into `GF_R`, or the error that ended its computation (41_field_arith.md R180). -/
def gfResult (s : State) : Except CmdError Half → Except CmdError State
  | .error e => .error e
  | .ok r => .ok (s.setGfR r)

/-- `GF_ADD` (41_field_arith.md R181). -/
def execGfAdd (w : Width) (s : State) : Host.Outcome State Fault Refusal :=
  complete s (gfResult s (.ok (gfAdd (s.opA w) (s.opB w))))

/-- `GF_MUL` (41_field_arith.md R182). -/
def execGfMul (w : Width) (s : State) : Host.Outcome State Fault Refusal :=
  complete s (gfResult s (.ok (gfMul w (s.opA w) (s.opB w))))

/-- `GF_DIV` (41_field_arith.md R183). -/
def execGfDiv (w : Width) (s : State) : Host.Outcome State Fault Refusal :=
  complete s (gfResult s (gfDiv w (s.opA w) (s.opB w)))

/-- `GF_INV` (41_field_arith.md R184). -/
def execGfInv (w : Width) (s : State) : Host.Outcome State Fault Refusal :=
  complete s (gfResult s (gfInv w (s.opA w)))

/-- `GF_POW` (41_field_arith.md R185). -/
def execGfPow (w : Width) (s : State) : Host.Outcome State Fault Refusal :=
  complete s (gfResult s (.ok (gfPow w (s.opA w) s.gfN.toNat)))

end Sys2Proof.Machine
end

