-- ==== Sys2Proof/Machine/MatrixEngine.lean ====
section
/-! DEFINITION. The meanings of the matrix commands (42_matrix_engine.md R212 to R216) and of MAT_BUILD
(43_encoding_matrix_builder.md R236). -/

namespace Sys2Proof.Machine

/-- A matrix result into `M[md]`, or the error that ended its computation (10_state.md R47). -/
def matResult (s : State) (md : MatReg) : Except CmdError Mat → Except CmdError State
  | .error e => .error e
  | .ok R => .ok (s.writeMat md R)

/-- `MAT_IDENTITY` (42_matrix_engine.md R212). -/
def execMatIdentity (md : MatReg) (s : State) : Host.Outcome State Fault Refusal :=
  complete s (matResult s md
    (if s.params.nMax < s.argN.toNat then .error .capacityExceeded else .ok (identity s.argN.toNat)))

/-- `MAT_MUL` (42_matrix_engine.md R213). -/
def execMatMul (w : Width) (md ma mb : MatReg) (s : State) : Host.Outcome State Fault Refusal :=
  complete s (matResult s md (matMul w (s.matVal w 0 ma) (s.matVal w 1 mb)))

/-- `MAT_SUB` (42_matrix_engine.md R215). -/
def execMatSub (md ma : MatReg) (s : State) : Host.Outcome State Fault Refusal :=
  complete s (matResult s md (submatrix (s.matRaw 0 ma) s.idxList))

/-- `MAT_INV` (42_matrix_engine.md R216). -/
def execMatInv (w : Width) (md ma : MatReg) (s : State) : Host.Outcome State Fault Refusal :=
  complete s (matResult s md (matInv w (s.matVal w 0 ma)))

/-- The checked build of MAT_BUILD and RS_CONSTRUCT from `CFG_NDATA` and `CFG_NPARITY`
(43_encoding_matrix_builder.md R235, R236; 44_rs_engine.md R250). -/
def State.cfgBuild (s : State) (w : Width) : Except CmdError Mat :=
  match countCheck w s.params.nMax s.cfgNdata.toNat s.cfgNparity.toNat with
  | some e => .error e
  | none => build w s.cfgNdata.toNat s.cfgNparity.toNat

/-- `MAT_BUILD` (43_encoding_matrix_builder.md R236). -/
def execMatBuild (w : Width) (md : MatReg) (s : State) : Host.Outcome State Fault Refusal :=
  complete s (matResult s md (s.cfgBuild w))

end Sys2Proof.Machine
end

