-- ==== Sys2Proof/Machine/RsEngine.lean ====
section
/-! DEFINITION. The meanings of the Reed-Solomon engine commands (44_rs_engine.md R250 to R281). -/

namespace Sys2Proof.Machine

/-- The success writes of RS_CONSTRUCT (44_rs_engine.md R253). -/
def State.writeInstance (s : State) (w : Width) (E : Mat) : State :=
  (s.writeMat .enc E).setEngine w s.cfgNdata s.cfgNparity

/-- `RS_CONSTRUCT` (44_rs_engine.md R250). -/
def execRsConstruct (w : Width) (s : State) : Host.Outcome State Fault Refusal :=
  complete s (match s.cfgBuild w with
    | .error e => .error e
    | .ok E => .ok (s.writeInstance w E))

/-- The bytes that RS_ENCODE writes: every symbol of every parity shard (44_rs_engine.md R260). -/
def State.encodeCells (s : State) : List Host.Cell :=
  (List.range s.nParity).flatMap fun p =>
    shardCells s.engWidth (s.nData + p) (s.symCount s.setLen) fun t => s.parity p t

/-- `RS_ENCODE` (44_rs_engine.md R260). -/
def execRsEncode (s : State) : Host.Outcome State Fault Refusal :=
  complete s (match s.setCheck with
    | some e => .error e
    | none => .ok (s.writeShards s.encodeCells))

/-- Every parity symbol equals the recomputed one (44_rs_engine.md R265). -/
def State.parityMatches (s : State) : Bool :=
  (List.range s.nParity).all fun p => (List.range (s.symCount s.setLen)).all fun t =>
    s.symAt s.engWidth [0] (s.nData + p) t == s.parity p t

/-- `RS_VERIFY`: `VERIFY_OK` is cleared before the first check, so an error leaves it 0 (44_rs_engine.md R265,
R266). -/
def execRsVerify (s : State) : Host.Outcome State Fault Refusal :=
  complete (s.setVerifyOk false) (match s.setCheck with
    | some e => .error e
    | none => .ok (s.setVerifyOk s.parityMatches))

/-- The vector of the selected symbols `v(t)` (44_rs_engine.md R278). -/
def State.selectedSym (s : State) (t j : Nat) : Half := s.symAt s.engWidth [0] (s.selected.getD j 0) t

/-- The recovered data symbol `x[c]` of `x = Dinv · v(t)` (44_rs_engine.md R278). -/
def State.recoveredData (s : State) (Dinv : Mat) (t c : Nat) : Half :=
  dot s.engWidth s.nData (fun j => Dinv.at c j) (fun j => s.selectedSym t j)

/-- The recovered symbol of the absent slot `k` (44_rs_engine.md R278). -/
def State.recoveredSym (s : State) (Dinv : Mat) (k t : Nat) : Half :=
  if k < s.nData then s.recoveredData Dinv t k
  else dot s.engWidth s.nData (fun c => s.encEl k c) (fun c => s.recoveredData Dinv t c)

/-- `Dinv`, the inverse of the selected rows of `E` (44_rs_engine.md R278, R281). -/
def State.decodeMat (s : State) : Except CmdError Mat :=
  match submatrix s.encMat s.selected with
  | .error e => .error e
  | .ok D => matInv s.engWidth D

/-- The bytes that RS_RECONSTRUCT writes: every symbol of every absent shard (44_rs_engine.md R275, R280). -/
def State.recoverCells (s : State) (Dinv : Mat) : List Host.Cell :=
  s.absentSet.flatMap fun k => shardCells s.engWidth k (s.symCount s.recLen) fun t => s.recoveredSym Dinv k t

/-- `RS_RECONSTRUCT` (44_rs_engine.md R275). -/
def execRsReconstruct (s : State) : Host.Outcome State Fault Refusal :=
  complete s (match s.recCheck with
    | some e => .error e
    | none =>
      if s.absentSet = [] then .ok s
      else match s.decodeMat with
        | .error e => .error e
        | .ok Dinv =>
          .ok ((s.writeShards (s.recoverCells Dinv)).markPresent s.absentSet (BitVec.ofNat 32 s.recLen)))

end Sys2Proof.Machine
end

