-- ==== Sys2Proof/Machine/Dispatch.lean ====
section
/-! DEFINITION. The completion of a decoded command: one arm per constructor of Instr (40_command_lifecycle.md
R153). -/

namespace Sys2Proof.Machine

def exec (i : Instr) (s : State) : Host.Outcome State Fault Refusal :=
  match i with
  | .nop => Sys2Proof.Machine.execNop s
  | .gfAdd w => Sys2Proof.Machine.execGfAdd w s
  | .gfMul w => Sys2Proof.Machine.execGfMul w s
  | .gfDiv w => Sys2Proof.Machine.execGfDiv w s
  | .gfInv w => Sys2Proof.Machine.execGfInv w s
  | .gfPow w => Sys2Proof.Machine.execGfPow w s
  | .matIdentity md => Sys2Proof.Machine.execMatIdentity md s
  | .matMul w md ma mb => Sys2Proof.Machine.execMatMul w md ma mb s
  | .matSub md ma => Sys2Proof.Machine.execMatSub md ma s
  | .matInv w md ma => Sys2Proof.Machine.execMatInv w md ma s
  | .matBuild w md => Sys2Proof.Machine.execMatBuild w md s
  | .rsConstruct w => Sys2Proof.Machine.execRsConstruct w s
  | .rsEncode => Sys2Proof.Machine.execRsEncode s
  | .rsVerify => Sys2Proof.Machine.execRsVerify s
  | .rsReconstruct => Sys2Proof.Machine.execRsReconstruct s

end Sys2Proof.Machine
end

