-- ==== Sys2Proof/Machine/Turns.lean ====
section
/-! DEFINITION. The turn of each agent: the host's bus transaction, the engine's completion, the reset input
(00_scope.md R21, 70_reset_and_hazards.md R320). -/

namespace Sys2Proof.Machine

/-- A host read: the value is left on the byte lanes of `busData`. An access of another size than 4 bytes is rejected
and returns 0 (20_memory.md R92). -/
def hostRead (addr size : Nat) (s : State) : Host.Outcome State Fault Refusal :=
  match blockOffset s.params addr with
  | none => .fault .addressOutsideBlock
  | some off =>
    if size = 4 then .next { (busRead off s).2 with busData := lanesOf (busRead off s).1 }
    else .next { s.reject with busData := List.replicate size 0 }

/-- A host write of the bytes `lanes`. An access of another size than 4 bytes is rejected (20_memory.md R92). -/
def hostWrite (addr : Nat) (lanes : List Byte) (s : State) : Host.Outcome State Fault Refusal :=
  match blockOffset s.params addr with
  | none => .fault .addressOutsideBlock
  | some off =>
    match wordOfLanes lanes with
    | none => .next s.reject
    | some v => .next (busWrite off v s)

/-- A host step: one bus transaction (20_memory.md R90, R93). -/
def hostTurn (op : BusOp) (s : State) : Host.Outcome State Fault Refusal :=
  match op with
  | .read addr size => hostRead addr size s
  | .write addr lanes => hostWrite addr lanes s

/-- `execute(PEND)` with its completion: the decoded command, or `IllegalCommand` for an illegal word
(40_command_lifecycle.md R152 to R154, 30_encoding.md R137). -/
def executeWord (v : Word) (s : State) : Host.Outcome State Fault Refusal :=
  match decode v with
  | .error _ => complete s (.error .illegalCommand)
  | .ok i => exec i s

/-- An engine step. It has one only while `BUSY = 1` (00_scope.md R21, 40_command_lifecycle.md R151); otherwise its
turn passes with no effect (log 5). -/
def engineTurn (s : State) : Host.Outcome State Fault Refusal :=
  if s.status.busy then
    match s.pend with
    | none => .fault .noPendingWord
    | some v => executeWord v s
  else .next s

/-- The turn `t`. -/
def takeTurn (t : Turn) (s : State) : Host.Outcome State Fault Refusal :=
  match t with
  | .host op => hostTurn op s
  | .engine => engineTurn s
  | .reset => .next s.resetStep

end Sys2Proof.Machine
end

