-- ==== Sys2Proof/Machine/Step.lean ====
section
/-! DEFINITION. One step of the block: the first turn of the agenda, or the engine's when the agenda is empty. -/

namespace Sys2Proof.Machine

/-- One step. The order of the agents' steps is open (20_memory.md R111, 40_command_lifecycle.md R151) and is read
from the agenda; once it is exhausted, only the engine can still move (log 5). -/
def step (s : State) : Host.Outcome State Fault Refusal :=
  match s.agenda with
  | [] => engineTurn s
  | t :: rest => takeTurn t { s with agenda := rest }

/-- `s` with the low `nbits` bits of `w` issued as the pending command (40_command_lifecycle.md R150) and the next turn
given to the engine, so that the next step completes exactly this command (log 11). -/
def State.withFetchWord (s : State) (nbits w : Nat) : State :=
  { s.issue (BitVec.ofNat 32 (w % 2 ^ nbits)) with agenda := .engine :: s.agenda }

end Sys2Proof.Machine
end

