-- ==== Sys2Proof/Safety.lean ====
section
/-! DEFINITION. The terms that claims use: the state that a completion leaves, what a matrix result writes, and the
invariants of a run. -/

namespace Sys2Proof.Machine

/-! ### Completions, spelled as 40_command_lifecycle.md R152 does -/

/-- `u`, a state with the command's own writes made, after a successful completion. The draw counter is the model's
own (log 2). -/
def afterSuccess (u : State) : State :=
  { u with
    status := { u.status with busy := false, done := true, err := false, errCode := 0 }
    pend := none
    draws := u.draws + 1 }

/-- `s` after a completion that failed with the error code `code` and made no write (40_command_lifecycle.md R154). -/
def afterFailure (code : BitVec 4) (s : State) : State :=
  { s with
    status := { s.status with busy := false, done := true, err := true, errCode := code }
    pend := none
    draws := s.draws + 1 }

/-- `s` with `VERIFY_OK` replaced (44_rs_engine.md R266). -/
def withVerifyOk (b : Bool) (s : State) : State := { s with status := { s.status with verifyOk := b } }

/-- `s` with `ACCERR` set and nothing else changed (20_memory.md R96). -/
def rejectedAccess (s : State) : State := { s with status := { s.status with accErr := true } }

/-! ### Field elements and symbols -/

/-- `a` is a field element of width `w`: `a < 2^w` (41_field_arith.md R170). -/
def IsElem (w : Width) (a : Half) : Prop := a.toNat < 2 ^ w.bits

/-- `v[w-1:0]`, zero-extended (41_field_arith.md R180). -/
def lowPart (w : Width) (v : Half) : Half := BitVec.ofNat 16 (v.toNat % 2 ^ w.bits)

/-- Byte `k` of a little-endian symbol: `v[8k+7:8k]` (00_scope.md R17). -/
def byteOf (v : Half) (k : Nat) : Byte := v.extractLsb' (8 * k) 8

/-- Symbol `t` of shard `k`: one byte at width 8, and two bytes, the low one first, at width 16 (00_scope.md R17, R18;
20_memory.md R105). -/
def State.symbol (s : State) (w : Width) (use : List Nat) (k t : Nat) : Half :=
  match w with
  | .w8 => BitVec.ofNat 16 (s.shardAt use k t).toNat
  | .w16 => BitVec.ofNat 16 ((s.shardAt use k (2 * t)).toNat + 256 * (s.shardAt use k (2 * t + 1)).toNat)

/-- The element written at `[r][c]` of `M[m]`, if it has been written since reset. -/
def State.elem? (s : State) (m : MatReg) (r c : Nat) : Option Half := Store.get? s.el (elKey m r c)

/-! ### A matrix result -/

/-- From `s` to `t`, a `rows × cols` matrix with elements `f` was written into `M[md]`, and the command completed
successfully: inside the shape `f`, every other element of every matrix as before, the shape of `M[md]` alone
replaced, and no other state changed but for the completion itself (10_state.md R47). -/
def WritesMatrix (s t : State) (md : MatReg) (rows cols : Nat) (f : Nat → Nat → Half) : Prop :=
  (∀ r < rows, ∀ c < cols, t.elem? md r c = some (f r c)) ∧
  (∀ m r c, r < 2 ^ 16 → c < 2 ^ 16 → (m ≠ md ∨ rows ≤ r ∨ cols ≤ c) → t.elem? m r c = s.elem? m r c) ∧
  t = afterSuccess { s with
    el := t.el
    shapes := s.shapes.set md ⟨BitVec.ofNat 16 rows, BitVec.ofNat 16 cols⟩ }

/-! ### Invariants -/

/-- The parameters are in range; `PEND` is valid exactly while busy; a running command shows no outcome yet; `ERR` says
whether there is an error code, and no reserved code appears (00_scope.md R11, R12; 10_state.md R35, R63;
93_implementation_defined.md I12). -/
structure ControlInv (s : State) : Prop where
  params : s.params.wf = true
  pend : s.status.busy = s.pend.isSome
  running : s.status.busy = true → s.status.done = false ∧ s.status.err = false ∧ s.status.errCode = 0
  err : s.status.err = true ↔ s.status.errCode ≠ 0
  code : s.status.errCode.toNat ≤ 11

/-- Every array is in canonical form and inside the capacities, and every count and shape is in its range
(10_state.md R46, R52, R54, R55, R57). -/
structure ArrayInv (s : State) : Prop where
  idxCount : s.idxCount.toNat ≤ s.params.nMax
  slotCount : s.slotCount.toNat ≤ s.params.nMax
  shapes : ∀ m, (s.shapes.get m).rows.toNat ≤ s.params.nMax ∧ (s.shapes.get m).cols.toNat ≤ s.params.nMax
  elWf : Store.wf s.el
  idxWf : Store.wf s.idx
  lenWf : Store.wf s.slotLen
  presentWf : Store.wf s.slotPresent
  shWf : Memory.wf s.sh
  elRange : ∀ kv ∈ s.el, ∃ m r c, r < s.params.nMax ∧ c < s.params.nMax ∧ kv.1 = elKey m r c
  idxRange : ∀ kv ∈ s.idx, kv.1 < s.params.nMax
  lenRange : ∀ kv ∈ s.slotLen, kv.1 < s.params.nMax ∧ kv.2.toNat ≤ s.params.shardCap
  presentRange : ∀ kv ∈ s.slotPresent, kv.1 < s.params.nMax
  shRange : ∀ kv ∈ s.sh, ∃ k o, k < s.params.nMax ∧ o < s.params.shardCap ∧ kv.1 = shKey k o

/-- The engine instance: while `CONFIGURED = 1`, `M[ENC]` is the encoding matrix of the latched counts and width, which
passed the validation of construct; otherwise there is none (44_rs_engine.md R255, 10_state.md R65). -/
structure EngineInv (s : State) : Prop where
  built : s.status.configured = true →
    1 ≤ s.nData ∧ s.nTotal ≤ fieldLimit s.engWidth ∧ s.nTotal ≤ s.params.nMax ∧
    s.shapes.enc = ⟨BitVec.ofNat 16 s.nTotal, s.engNdata⟩ ∧
    ∃ E, build s.engWidth s.nData s.nParity = .ok E ∧
      ∀ r < s.nTotal, ∀ c < s.nData, s.elem? .enc r c = some (E.at r c)
  absent : s.status.configured = false →
    s.engNdata = 0 ∧ s.engNparity = 0 ∧ s.status.engW16 = false ∧ s.shapes.enc = ⟨0, 0⟩

/-- The invariant of a run. -/
structure Inv (s : State) : Prop where
  control : ControlInv s
  arrays : ArrayInv s
  engine : EngineInv s

/-! ### The engine instance and its shard set -/

/-- The engine instance is the same in `s` and `t`: counts, width, `CONFIGURED`, and `M[ENC]` with its shape
(10_state.md R40). -/
def SameInstance (s t : State) : Prop :=
  t.status.configured = s.status.configured ∧ t.status.engW16 = s.status.engW16 ∧ t.engNdata = s.engNdata ∧
    t.engNparity = s.engNparity ∧ t.shapes.enc = s.shapes.enc ∧
    ∀ r c, r < 2 ^ 16 → c < 2 ^ 16 → t.elem? .enc r c = s.elem? .enc r c

/-- Every slot of the shard set has a written descriptor that says present with length `len`, a length that the engine
accepts (44_rs_engine.md R256, R258). -/
def FullSet (s : State) (len : Word) : Prop :=
  s.status.configured = true ∧ s.slotCount.toNat = s.nTotal ∧ len ≠ 0 ∧
    (s.status.engW16 = true → len.toNat % 2 = 0) ∧
    ∀ k < s.nTotal, Store.get? s.slotPresent k = some true ∧ Store.get? s.slotLen k = some len

/-- Every data byte below `len` has been written since reset. -/
def DataWritten (s : State) (len : Word) : Prop := ∀ k < s.nData, ∀ o < len.toNat, (s.byte? k o).isSome = true

end Sys2Proof.Machine
end

