-- ==== Sys2Proof/Certificates/Slice0/Obligations.lean ====
section
/-! DEFINITION. The statements for the provers. -/

open Sys2Proof Sys2Proof.Machine

/-! ### Encoding and decoding -/

/-- The decoder reads exactly the words that the encoder writes for well-formed commands: no bit of a word is dropped,
and no command has two words (30_encoding.md R131, R137, R139). -/
def Obligations.DecodeEncodeAgree : Prop :=
  ∀ (v : Word) (i : Instr), decode v = .ok i ↔ i.wf = true ∧ encode i = v

/-- Words of 30_encoding.md R140 and 95_test_vectors.md 2.6, written out there, decode to the commands they stand
for, or to the reason why they stand for none. -/
def Obligations.WorkedWordsDecode : Prop :=
  decode 0x00000002 = .ok (.gfMul .w8) ∧ decode 0x00000102 = .ok (.gfMul .w16) ∧
  decode 0x00008411 = .ok (.matMul .w8 .m2 .m0 .m1) ∧ decode 0x00000213 = .ok (.matInv .w8 .m1 .m0) ∧
  decode 0x00000610 = .ok (.matIdentity .m3) ∧ decode 0x00004212 = .ok (.matSub .m1 .enc) ∧
  decode 0x00000120 = .ok (.rsConstruct .w16) ∧ decode 0x00000021 = .ok .rsEncode ∧
  decode 0x00040000 = .error .reservedBits ∧ decode 0x00000100 = .error .unusedField ∧
  decode 0x00000E11 = .error .destination ∧ decode 0x00028011 = .error .source ∧
  decode 0x00000024 = .error .reservedOpcode

/-- A word with a reserved opcode is no command, whatever its other bits (30_encoding.md R138). -/
def Obligations.ReservedOpcodesAreIllegal : Prop :=
  ∀ v : Word,
    let opc := v.toNat % 256
    (0x06 ≤ opc ∧ opc ≤ 0x0F) ∨ (0x15 ≤ opc ∧ opc ≤ 0x1F) ∨ 0x24 ≤ opc → ∃ e, decode v = .error e

/-! ### The step -/

/-- When a well-formed command's word is pending and the engine moves, the step is the meaning of that command, with
the engine's turn taken off the agenda (40_command_lifecycle.md R152, R153). The agenda is the model's own (log 5). -/
def Obligations.StepRunsDecodedCommand : Prop :=
  ∀ (s : State) (v : Word) (i : Instr), s.status.busy = true → s.pend = some v → decode v = .ok i →
    (s.agenda = [] → step s = exec i s) ∧
    (∀ rest, s.agenda = .engine :: rest → step s = exec i { s with agenda := rest })

/-- When an illegal word is pending and the engine moves, it completes with `IllegalCommand` and changes nothing else
(30_encoding.md R137, 40_command_lifecycle.md R154). The agenda (log 5) and the draw counter, which a completion moves
on (log 2), are the model's own. -/
def Obligations.IllegalWordCompletesWithCode8 : Prop :=
  ∀ (s : State) (v : Word) (e : IllegalWord), s.status.busy = true → s.pend = some v → decode v = .error e →
    (s.agenda = [] → step s = .next (afterFailure 8 s)) ∧
    (∀ rest, s.agenda = .engine :: rest → step s = .next (afterFailure 8 { s with agenda := rest }))

/-- Every command completes, from every state, in one step: `BUSY = 0`, `DONE = 1`, no pending word, an outcome code
with `ERR` set exactly when it is not 0, and `ACCERR`, `INT_EN` and the host's operand and pointer registers
unchanged (40_command_lifecycle.md R152, R156). -/
def Obligations.EveryCommandCompletes : Prop :=
  ∀ (i : Instr) (s : State), ∃ t, exec i s = .next t ∧
    t.status.busy = false ∧ t.status.done = true ∧ t.pend = none ∧
    (t.status.err = true ↔ t.status.errCode ≠ 0) ∧ t.status.errCode.toNat ≤ 11 ∧
    t.status.accErr = s.status.accErr ∧ t.intEn = s.intEn ∧ t.params = s.params ∧
    t.cfgNdata = s.cfgNdata ∧ t.cfgNparity = s.cfgNparity ∧ t.argN = s.argN ∧ t.gfA = s.gfA ∧ t.gfB = s.gfB ∧
    t.gfN = s.gfN ∧ t.matSel = s.matSel ∧ t.matRow = s.matRow ∧ t.matCol = s.matCol ∧ t.idxCount = s.idxCount ∧
    t.idxPtr = s.idxPtr ∧ t.idx = s.idx ∧ t.slotCount = s.slotCount ∧ t.slotSel = s.slotSel ∧
    t.shSlot = s.shSlot ∧ t.shOff = s.shOff ∧ t.tblSel = s.tblSel ∧ t.tblIdx = s.tblIdx ∧
    t.agenda = s.agenda ∧ t.busData = s.busData

/-- A command that raises an error changes nothing but the completion's fields of `STATUS`, and for RS_VERIFY also
clears `VERIFY_OK` (40_command_lifecycle.md R154). The draw counter, which a completion moves on, is the model's own
(log 2). -/
def Obligations.FailedCommandChangesOnlyStatus : Prop :=
  ∀ (i : Instr) (s t : State), exec i s = .next t → t.status.err = true →
    t = afterFailure t.status.errCode (if i = .rsVerify then withVerifyOk false s else s)

/-- Beside the completion's fields, `VERIFY_OK` is written only by RS_VERIFY, `CONFIGURED` and `ENG_W16` only by a
successful RS_CONSTRUCT, and `GF_R` only by a successful field-arithmetic command (40_command_lifecycle.md R156,
44_rs_engine.md R266, 10_state.md R45). -/
def Obligations.ResultFieldsWrittenOnlyByTheirCommand : Prop :=
  ∀ (i : Instr) (s t : State), exec i s = .next t →
    (i ≠ .rsVerify → t.status.verifyOk = s.status.verifyOk) ∧
    ((∀ w, i ≠ .rsConstruct w) ∨ t.status.err = true →
      t.status.configured = s.status.configured ∧ t.status.engW16 = s.status.engW16) ∧
    ((∀ w, i ≠ .gfAdd w ∧ i ≠ .gfMul w ∧ i ≠ .gfDiv w ∧ i ≠ .gfInv w ∧ i ≠ .gfPow w) ∨ t.status.err = true →
      t.gfR = s.gfR)

/-- The error codes that each command can complete with: those of the table of 60_exceptions.md R293, so that only GF_DIV
and GF_INV divide by zero and the builder never fails (60_exceptions.md R294, 43_encoding_matrix_builder.md
R233). -/
def Obligations.ErrorCodesPerCommand : Prop :=
  ∀ (i : Instr) (s t : State), exec i s = .next t →
    match i with
    | .nop => t.status.errCode = 0
    | .gfAdd _ => t.status.errCode = 0
    | .gfMul _ => t.status.errCode = 0
    | .gfDiv _ => t.status.errCode ∈ [0, 5]
    | .gfInv _ => t.status.errCode ∈ [0, 5]
    | .gfPow _ => t.status.errCode = 0
    | .matIdentity _ => t.status.errCode ∈ [0, 11]
    | .matMul _ _ _ _ => t.status.errCode ∈ [0, 7]
    | .matSub _ _ => t.status.errCode ∈ [0, 10]
    | .matInv _ _ _ => t.status.errCode ∈ [0, 7, 6]
    | .matBuild _ _ => t.status.errCode ∈ [0, 1, 3]
    | .rsConstruct _ => t.status.errCode ∈ [0, 1, 3]
    | .rsEncode => t.status.errCode ∈ [0, 9, 1, 2]
    | .rsVerify => t.status.errCode ∈ [0, 9, 1, 2]
    | .rsReconstruct => t.status.errCode ∈ [0, 9, 1, 2, 4, 6]

/-! ### NOP and field arithmetic -/

/-- NOP completes successfully and writes nothing but `STATUS` (40_command_lifecycle.md R157). -/
def Obligations.NopCompletes : Prop := ∀ s : State, exec .nop s = .next (afterSuccess s)

/-- GF_ADD completes with the exclusive-or of the operands' low parts in `GF_R`, and nothing else changed
(41_field_arith.md R175, R180, R181). -/
def Obligations.GfAddResult : Prop :=
  ∀ (w : Width) (s : State),
    exec (.gfAdd w) s = .next (afterSuccess { s with gfR := lowPart w (s.gfA ^^^ s.gfB) })

/-- GF_MUL completes with the product of the operands' low parts as polynomials over GF(2), reduced modulo the field's
polynomial, in `GF_R`, and nothing else changed (41_field_arith.md R172, R180, R182). -/
def Obligations.GfMulResult : Prop :=
  ∀ (w : Width) (s : State),
    exec (.gfMul w) s = .next (afterSuccess { s with gfR := clmul w (lowPart w s.gfA) (lowPart w s.gfB) })

/-- GF_DIV with a divisor that is not 0 completes with the field element whose product with the divisor is the dividend,
and nothing else changed; with divisor 0 it fails with `DivideByZero` (41_field_arith.md R178, R180, R183). -/
def Obligations.GfDivResult : Prop :=
  ∀ (w : Width) (s : State),
    (lowPart w s.gfB ≠ 0 → ∃ r, IsElem w r ∧ clmul w r (lowPart w s.gfB) = lowPart w s.gfA ∧
      exec (.gfDiv w) s = .next (afterSuccess { s with gfR := r })) ∧
    (lowPart w s.gfB = 0 → exec (.gfDiv w) s = .next (afterFailure 5 s))

/-- GF_INV of an operand that is not 0 completes with the field element whose product with it is 1, and nothing else
changed; of 0 it fails with `DivideByZero` (41_field_arith.md R177, R180, R184). -/
def Obligations.GfInvResult : Prop :=
  ∀ (w : Width) (s : State),
    (lowPart w s.gfA ≠ 0 → ∃ r, IsElem w r ∧ clmul w (lowPart w s.gfA) r = 1 ∧
      exec (.gfInv w) s = .next (afterSuccess { s with gfR := r })) ∧
    (lowPart w s.gfA = 0 → exec (.gfInv w) s = .next (afterFailure 5 s))

/-- GF_POW completes with the `GF_N`-fold product of the operand's low part in `GF_R`, 1 when `GF_N = 0`, and nothing
else changed (41_field_arith.md R179, R180, R185). -/
def Obligations.GfPowResult : Prop :=
  ∀ (w : Width) (s : State),
    exec (.gfPow w) s = .next (afterSuccess { s with gfR := gfPowIter w (lowPart w s.gfA) s.gfN.toNat })

/-- The exponent table: 1 first, each next entry the product of the last one with `g = 2`, and 1 again at `q - 1`
(41_field_arith.md R173). -/
def Obligations.ExpTableIsPowersOfTwo : Prop :=
  ∀ w : Width, expTable w 0 = 1 ∧ expTable w (2 ^ w.bits - 1) = 1 ∧
    ∀ i, 1 ≤ i → i ≤ 2 ^ w.bits - 2 → expTable w i = clmul w (expTable w (i - 1)) 2

/-- The logarithm table inverts the exponent table: for every element but 0 the entry is the one index in `0 .. q-2`
at which the exponent table holds it, and the entry of 0 is 0 (41_field_arith.md R174). -/
def Obligations.LogTableInvertsExpTable : Prop :=
  ∀ w : Width, logTable w 0 = 0 ∧
    ∀ a, IsElem w a → a ≠ 0 →
      logTable w a ≤ 2 ^ w.bits - 2 ∧ expTable w (logTable w a) = a ∧
      ∀ i, i ≤ 2 ^ w.bits - 2 → expTable w i = a → i = logTable w a

/-- The field laws of both fields, with closure: every result is a field element (41_field_arith.md R186). -/
def Obligations.FieldLaws : Prop :=
  ∀ (w : Width) (a b c : Half), IsElem w a → IsElem w b → IsElem w c →
    (IsElem w (gfAdd a b) ∧ IsElem w (gfMul w a b)) ∧
    (gfAdd a b = gfAdd b a ∧ gfMul w a b = gfMul w b a) ∧
    (gfAdd (gfAdd a b) c = gfAdd a (gfAdd b c) ∧ gfMul w (gfMul w a b) c = gfMul w a (gfMul w b c)) ∧
    gfMul w a (gfAdd b c) = gfAdd (gfMul w a b) (gfMul w a c) ∧
    (gfAdd a 0 = a ∧ gfMul w a 1 = a ∧ gfMul w a 0 = 0) ∧
    (a ≠ 0 → ∃ r, gfInv w a = .ok r ∧ IsElem w r ∧ gfMul w a r = 1 ∧ ∀ x, IsElem w x → gfMul w a x = 1 → x = r) ∧
    (∀ m n, gfPow w a (m + n) = gfMul w (gfPow w a m) (gfPow w a n)) ∧
    (a ≠ 0 → gfPow w a (2 ^ w.bits - 1) = 1)

/-! ### The matrix engine -/

/-- MAT_IDENTITY with `ARG_N ≤ N_MAX` writes the identity matrix and changes nothing else; with a larger `ARG_N` it fails
with `CapacityExceeded` (42_matrix_engine.md R202, R212). -/
def Obligations.MatIdentityResult : Prop :=
  ∀ (s : State) (md : MatReg), md.general = true → s.params.wf = true →
    (s.argN.toNat ≤ s.params.nMax → ∃ t, exec (.matIdentity md) s = .next t ∧
      WritesMatrix s t md s.argN.toNat s.argN.toNat fun r c => if r = c then 1 else 0) ∧
    (s.params.nMax < s.argN.toNat → exec (.matIdentity md) s = .next (afterFailure 11 s))

/-- MAT_MUL of operands whose inner dimensions agree writes the product, element by element the field sum of products of
the operands' low parts as they were at issue, and changes nothing else; otherwise it fails with
`DimensionMismatch` (42_matrix_engine.md R201, R203, R211, R213). That an operand's element not written since reset is
read once is the model's inference (log 3), and the draw counter is the model's own (log 2). -/
def Obligations.MatMulResult : Prop :=
  ∀ (s : State) (w : Width) (md ma mb : MatReg), md.general = true →
    let A := s.shapes.get ma
    let B := s.shapes.get mb
    (A.cols = B.rows → ∃ t, exec (.matMul w md ma mb) s = .next t ∧
      WritesMatrix s t md A.rows.toNat B.cols.toNat fun i j =>
        xorSum A.cols.toNat fun k => gfMul w (lowPart w (s.elAt [0] ma i k)) (lowPart w (s.elAt [1] mb k j))) ∧
    (A.cols ≠ B.rows → exec (.matMul w md ma mb) s = .next (afterFailure 7 s))

/-- MAT_SUB with every index in range copies the selected rows, all 16 bits, in the given order, and changes nothing
else; with an index out of range it fails with `IndexOutOfRange` (42_matrix_engine.md R204, R215). That an index or
element not written since reset is read once is the model's inference (log 3), and the draw counter is the model's own
(log 2). -/
def Obligations.MatSubResult : Prop :=
  ∀ (s : State) (md ma : MatReg), md.general = true →
    let A := s.shapes.get ma
    ((∀ j < s.idxCount.toNat, (s.idxAt [0] j).toNat < A.rows.toNat) → ∃ t, exec (.matSub md ma) s = .next t ∧
      WritesMatrix s t md s.idxCount.toNat A.cols.toNat fun j c => s.elAt [0] ma (s.idxAt [0] j).toNat c) ∧
    ((∃ j < s.idxCount.toNat, A.rows.toNat ≤ (s.idxAt [0] j).toNat) →
      exec (.matSub md ma) s = .next (afterFailure 10 s))

/-- MAT_INV of a square operand that has a left inverse writes a matrix `R` of field elements with
`R · A = A · R = identity` and changes nothing else; of a square operand without one it fails with `MatrixSingular`,
and of another shape with `DimensionMismatch` (42_matrix_engine.md R201, R205, R209, R216, R217). That an element not
written since reset is read once is the model's inference (log 3), and the draw counter is the model's own (log 2). -/
def Obligations.MatInvResult : Prop :=
  ∀ (s : State) (w : Width) (md ma : MatReg), md.general = true →
    let n := (s.shapes.get ma).rows.toNat
    let A := Mat.ofFn n n fun r c => lowPart w (s.elAt [0] ma r c)
    let invertible := ∃ f : Nat → Nat → Half, (∀ r c, IsElem w (f r c)) ∧ matMul w (Mat.ofFn n n f) A = .ok (identity n)
    ((s.shapes.get ma).rows = (s.shapes.get ma).cols → invertible →
      ∃ t f, exec (.matInv w md ma) s = .next t ∧ WritesMatrix s t md n n f ∧
        (∀ r < n, ∀ c < n, IsElem w (f r c)) ∧
        matMul w (Mat.ofFn n n f) A = .ok (identity n) ∧ matMul w A (Mat.ofFn n n f) = .ok (identity n)) ∧
    ((s.shapes.get ma).rows = (s.shapes.get ma).cols → ¬ invertible →
      exec (.matInv w md ma) s = .next (afterFailure 6 s)) ∧
    ((s.shapes.get ma).rows ≠ (s.shapes.get ma).cols → exec (.matInv w md ma) s = .next (afterFailure 7 s))

/-- A successful Gauss-Jordan inversion gives a two-sided inverse; the identity is neutral on the left; and the product
is associative (42_matrix_engine.md R217). -/
def Obligations.MatrixAlgebra : Prop :=
  ∀ (w : Width) (n m k l : Nat) (f g h : Nat → Nat → Half),
    (∀ r c, IsElem w (f r c)) → (∀ r c, IsElem w (g r c)) → (∀ r c, IsElem w (h r c)) →
    (∀ R, matInv w (Mat.ofFn n n f) = .ok R →
      matMul w (Mat.ofFn n n f) R = .ok (identity n) ∧ matMul w R (Mat.ofFn n n f) = .ok (identity n)) ∧
    matMul w (identity n) (Mat.ofFn n m f) = .ok (Mat.ofFn n m f) ∧
    ∃ AB BC ABC, matMul w (Mat.ofFn n m f) (Mat.ofFn m k g) = .ok AB ∧
      matMul w (Mat.ofFn m k g) (Mat.ofFn k l h) = .ok BC ∧
      matMul w AB (Mat.ofFn k l h) = .ok ABC ∧ matMul w (Mat.ofFn n m f) BC = .ok ABC

/-! ### The builder and construct -/

/-- The builder never fails on counts that pass the validation. Its matrix `E` consists of field elements, has the given
shape with the identity on top, and every selection of `n_data` distinct rows of it, in any order, is invertible. Its
coefficients are those of the construction: `E` times the top block of `V` is `V`, where `V[r][c]` is the `c`-fold
product of `r + 1` (43_encoding_matrix_builder.md R230 to R234). -/
def Obligations.BuildIsSystematicAndInvertible : Prop :=
  ∀ (w : Width) (n p : Nat), 1 ≤ n → n + p ≤ 2 ^ w.bits - 1 →
    ∃ E, build w n p = .ok E ∧ E.rows = n + p ∧ E.cols = n ∧
      (∀ r < n + p, ∀ c < n, IsElem w (E.at r c)) ∧
      (∀ r < n, ∀ c < n, E.at r c = if r = c then 1 else 0) ∧
      (∀ r < n + p, ∀ c < n, xorSum n (fun k => gfMul w (E.at r k) (gfPowIter w (BitVec.ofNat 16 (k + 1)) c)) =
        gfPowIter w (BitVec.ofNat 16 (r + 1)) c) ∧
      ∀ rows : List Nat, rows.length = n → rows.Nodup → (∀ r ∈ rows, r < n + p) →
        ∃ D R, submatrix E rows = .ok D ∧ matInv w D = .ok R

/-- The validation of MAT_BUILD and RS_CONSTRUCT, in its order: no data shard fails with `InvalidShardCount`, and a total
above the field limit or the capacity with `TooManyShards`; both leave the state otherwise unchanged
(43_encoding_matrix_builder.md R235, 44_rs_engine.md R251, R252). The draw counter, which a completion moves on, is the
model's own (log 2). -/
def Obligations.BuildersRejectBadCounts : Prop :=
  ∀ (s : State) (w : Width) (md : MatReg), md.general = true →
    let n := s.cfgNdata.toNat
    let p := s.cfgNparity.toNat
    (n = 0 → exec (.matBuild w md) s = .next (afterFailure 1 s) ∧
      exec (.rsConstruct w) s = .next (afterFailure 1 s)) ∧
    (n ≠ 0 → (2 ^ w.bits - 1 < n + p ∨ s.params.nMax < n + p) →
      exec (.matBuild w md) s = .next (afterFailure 3 s) ∧ exec (.rsConstruct w) s = .next (afterFailure 3 s))

/-- MAT_BUILD of counts that pass the validation, and for which the builder answers `E`, writes `E` and changes nothing
else, the engine instance included (43_encoding_matrix_builder.md R236). -/
def Obligations.MatBuildResult : Prop :=
  ∀ (s : State) (w : Width) (md : MatReg) (E : Mat), md.general = true → s.params.wf = true →
    s.cfgNdata ≠ 0 → s.cfgNdata.toNat + s.cfgNparity.toNat ≤ 2 ^ w.bits - 1 →
    s.cfgNdata.toNat + s.cfgNparity.toNat ≤ s.params.nMax →
    build w s.cfgNdata.toNat s.cfgNparity.toNat = .ok E →
    ∃ t, exec (.matBuild w md) s = .next t ∧
      WritesMatrix s t md (s.cfgNdata.toNat + s.cfgNparity.toNat) s.cfgNdata.toNat E.at

/-- RS_CONSTRUCT of counts that pass the validation, and for which the builder answers `E`, writes the whole engine
instance and nothing else: `M[ENC]`, `ENG_NDATA`, `ENG_NPARITY`, `ENG_W16` and `CONFIGURED`
(44_rs_engine.md R250, R253). -/
def Obligations.RsConstructResult : Prop :=
  ∀ (s : State) (w : Width) (E : Mat), s.params.wf = true →
    s.cfgNdata ≠ 0 → s.cfgNdata.toNat + s.cfgNparity.toNat ≤ 2 ^ w.bits - 1 →
    s.cfgNdata.toNat + s.cfgNparity.toNat ≤ s.params.nMax →
    build w s.cfgNdata.toNat s.cfgNparity.toNat = .ok E →
    ∃ t, exec (.rsConstruct w) s = .next t ∧
      WritesMatrix
        { s with
          engNdata := s.cfgNdata
          engNparity := s.cfgNparity
          status := { s.status with configured := true, engW16 := w == .w16 } }
        t .enc (s.cfgNdata.toNat + s.cfgNparity.toNat) s.cfgNdata.toNat E.at

/-! ### The engine commands -/

/-- The checks that come before all others in the three engine commands: `NotConfigured` without an engine instance, then
`InvalidShardCount` for a wrong slot count (44_rs_engine.md R246, R247). The draw counter, which a completion moves on,
is the model's own (log 2). -/
def Obligations.EngineCommandsCheckInstanceAndCount : Prop :=
  ∀ s : State,
    (s.status.configured = false →
      exec .rsEncode s = .next (afterFailure 9 s) ∧
      exec .rsVerify s = .next (afterFailure 9 (withVerifyOk false s)) ∧
      exec .rsReconstruct s = .next (afterFailure 9 s)) ∧
    (s.status.configured = true → s.slotCount.toNat ≠ s.engNdata.toNat + s.engNparity.toNat →
      exec .rsEncode s = .next (afterFailure 1 s) ∧
      exec .rsVerify s = .next (afterFailure 1 (withVerifyOk false s)) ∧
      exec .rsReconstruct s = .next (afterFailure 1 s))

/-- Encode and verify fail with `InvalidShardCount` when a slot of the set is absent, and otherwise with
`IncorrectShardSize` when the lengths differ, are 0, or are odd with 16-bit symbols
(44_rs_engine.md R256, R258, R260, R265). That `SLOT[0].len` is read twice, and so drawn twice if it has not been
written since reset, is the model's inference (log 3), and the draw counter is the model's own (log 2). -/
def Obligations.EncodeAndVerifyCheckTheSet : Prop :=
  ∀ s : State, s.status.configured = true → s.slotCount.toNat = s.engNdata.toNat + s.engNparity.toNat →
    let len := (s.slotLenAt [0] 0).toNat
    ((∃ k < s.slotCount.toNat, s.slotPresentAt [0] k = false) →
      exec .rsEncode s = .next (afterFailure 1 s) ∧
      exec .rsVerify s = .next (afterFailure 1 (withVerifyOk false s))) ∧
    ((∀ k < s.slotCount.toNat, s.slotPresentAt [0] k = true) →
      ((∃ k < s.slotCount.toNat, (s.slotLenAt [1] k).toNat ≠ len) ∨ len = 0 ∨
        (s.status.engW16 = true ∧ len % 2 = 1)) →
      exec .rsEncode s = .next (afterFailure 2 s) ∧
      exec .rsVerify s = .next (afterFailure 2 (withVerifyOk false s)))

/-- RS_ENCODE of a set that passes the checks completes: byte `o` of each parity shard is byte `o mod b` of its parity
symbol `o / b`, the field sum of the products of the row of `E` with the data symbols; every other byte of shard memory
is as before, and nothing else changes (44_rs_engine.md R249, R260, R261). How often the command reads a length, an
element or a byte not written since reset is the model's inference (log 3), and the draw counter is the model's own
(log 2). -/
def Obligations.RsEncodeResult : Prop :=
  ∀ s : State, s.status.configured = true → s.slotCount.toNat = s.nTotal →
    (∀ k < s.nTotal, s.slotPresentAt [0] k = true) →
    (∀ k < s.nTotal, (s.slotLenAt [1] k).toNat = (s.slotLenAt [0] 0).toNat) → (s.slotLenAt [0] 0).toNat ≠ 0 →
    (s.status.engW16 = true → (s.slotLenAt [0] 0).toNat % 2 = 0) →
    let par := fun p t => xorSum s.nData fun c =>
      gfMul s.engWidth (lowPart s.engWidth (s.elAt [0] .enc (s.nData + p) c)) (s.symbol s.engWidth [p] c t)
    ∃ t, exec .rsEncode s = .next t ∧
      (∀ p < s.nParity, ∀ o < (s.slotLenAt [0] 0).toNat,
        t.byte? (s.nData + p) o =
          some (byteOf (par p (o / (s.engWidth.bits / 8))) (o % (s.engWidth.bits / 8)))) ∧
      (∀ k o, o < 2 ^ 32 → k < s.nData ∨ s.nTotal ≤ k ∨ (s.slotLenAt [0] 0).toNat ≤ o → t.byte? k o = s.byte? k o) ∧
      t = afterSuccess { s with sh := t.sh }

/-- RS_VERIFY of a set that passes the checks completes successfully with `VERIFY_OK` telling whether every parity
symbol equals the recomputed one, the field sum of the products of the row of `E` with the data symbols, and changes
nothing else (44_rs_engine.md R249, R265, R266, R267). How often the command reads a length, an element or a byte not
written since reset is the model's inference (log 3), and the draw counter is the model's own (log 2). -/
def Obligations.RsVerifyResult : Prop :=
  ∀ s : State, s.status.configured = true → s.slotCount.toNat = s.nTotal →
    (∀ k < s.nTotal, s.slotPresentAt [0] k = true) →
    (∀ k < s.nTotal, (s.slotLenAt [1] k).toNat = (s.slotLenAt [0] 0).toNat) → (s.slotLenAt [0] 0).toNat ≠ 0 →
    (s.status.engW16 = true → (s.slotLenAt [0] 0).toNat % 2 = 0) →
    let par := fun p t => xorSum s.nData fun c =>
      gfMul s.engWidth (lowPart s.engWidth (s.elAt [0] .enc (s.nData + p) c)) (s.symbol s.engWidth [p] c t)
    ∃ ok : Bool, exec .rsVerify s = .next (afterSuccess (withVerifyOk ok s)) ∧
      (ok = true ↔ ∀ p < s.nParity, ∀ t < (s.slotLenAt [0] 0).toNat / (s.engWidth.bits / 8),
        s.symbol s.engWidth [0] (s.nData + p) t = par p t)

/-- Encode and then verify on the same written shard set gives `VERIFY_OK = 1`, and encoding it a second time leaves the
same bytes (44_rs_engine.md R262). -/
def Obligations.EncodeThenVerifyMatches : Prop :=
  ∀ (s : State) (len : Word), Inv s → FullSet s len → DataWritten s len →
    ∃ t u u', exec .rsEncode s = .next t ∧ t.status.err = false ∧
      exec .rsVerify t = .next u ∧ u.status.err = false ∧ u.status.verifyOk = true ∧
      exec .rsEncode t = .next u' ∧ u'.sh = t.sh

/-- The length check of RS_RECONSTRUCT looks at present slots only and comes before the absent-count check; more than
`n_parity` absent slots then fail with `TooFewShardsPresent`; both leave the state otherwise unchanged
(44_rs_engine.md R274, R276). That the length of the first present slot is read twice, and so drawn twice if it has not
been written since reset, is the model's inference (log 3), and the draw counter is the model's own (log 2). -/
def Obligations.ReconstructChecksLengthThenCount : Prop :=
  ∀ s : State, s.status.configured = true → s.slotCount.toNat = s.nTotal →
    let bad := ∃ p rest, s.presentSet = p :: rest ∧
      ((∃ k ∈ s.presentSet, s.slotLenAt [1] k ≠ s.slotLenAt [0] p) ∨ s.slotLenAt [0] p = 0 ∨
        (s.status.engW16 = true ∧ (s.slotLenAt [0] p).toNat % 2 = 1))
    (bad → exec .rsReconstruct s = .next (afterFailure 2 s)) ∧
    (¬ bad → s.nParity < s.absentSet.length → exec .rsReconstruct s = .next (afterFailure 4 s))

/-- RS_RECONSTRUCT of a set without an absent slot completes successfully after the length check and writes nothing
(44_rs_engine.md R279). -/
def Obligations.ReconstructOfFullSetWritesNothing : Prop :=
  ∀ (s : State) (len : Word), FullSet s len → 1 ≤ s.nTotal → exec .rsReconstruct s = .next (afterSuccess s)

/-- RS_RECONSTRUCT of a set with at most `n_parity` absent slots, where the rows of `E` of the `n_data` lowest present
slots have the inverse `Dinv`, completes: byte `o` of each absent shard is byte `o mod b` of its recovered symbol
`o / b`. A data symbol is the product of its row of `Dinv` with the selected symbols, and a parity symbol the product
of its row of `E` with the recovered data symbols. The absent slots become present with the common length, and every
other byte and descriptor, and all other state, is as before (44_rs_engine.md R275, R277, R278, R280). How often the
command reads a location not written since reset is the model's inference (log 3), and the draw counter is the model's
own (log 2). -/
def Obligations.RsReconstructResult : Prop :=
  ∀ (s : State) (Dinv : Mat) (p : Nat) (rest : List Nat),
    s.status.configured = true → s.slotCount.toNat = s.nTotal →
    s.presentSet = p :: rest → (∀ k ∈ s.presentSet, s.slotLenAt [1] k = s.slotLenAt [0] p) →
    s.slotLenAt [0] p ≠ 0 → (s.status.engW16 = true → (s.slotLenAt [0] p).toNat % 2 = 0) →
    1 ≤ s.absentSet.length → s.absentSet.length ≤ s.nParity →
    let w := s.engWidth
    let b := w.bits / 8
    let S := s.presentSet.take s.nData
    let E := fun r c => lowPart w (s.elAt [0] .enc r c)
    matInv w (Mat.ofFn s.nData s.nData fun j c => E (S.getD j 0) c) = .ok Dinv →
    let x := fun t c => xorSum s.nData fun j => gfMul w (Dinv.at c j) (s.symbol w [0] (S.getD j 0) t)
    let recovered := fun k t => if k < s.nData then x t k else xorSum s.nData fun c => gfMul w (E k c) (x t c)
    ∃ t, exec .rsReconstruct s = .next t ∧
      (∀ k ∈ s.absentSet, ∀ o < (s.slotLenAt [0] p).toNat,
        t.byte? k o = some (byteOf (recovered k (o / b)) (o % b))) ∧
      (∀ k o, o < 2 ^ 32 → k ∉ s.absentSet ∨ (s.slotLenAt [0] p).toNat ≤ o → t.byte? k o = s.byte? k o) ∧
      (∀ k ∈ s.absentSet, Store.get? t.slotLen k = some (s.slotLenAt [0] p) ∧ Store.get? t.slotPresent k = some true) ∧
      (∀ k, k ∉ s.absentSet → Store.get? t.slotLen k = Store.get? s.slotLen k ∧
        Store.get? t.slotPresent k = Store.get? s.slotPresent k) ∧
      t = afterSuccess { s with sh := t.sh, slotLen := t.slotLen, slotPresent := t.slotPresent }

/-- The recovery theorem: after a successful encode of a written shard set, let any slots, at most `n_parity` of them, be
marked absent, with arbitrary bytes and lengths left in them; RS_RECONSTRUCT then succeeds, every byte of the set
is again what the encode left, and every slot is present with the common length (44_rs_engine.md R283). -/
def Obligations.ReconstructRestoresLostShards : Prop :=
  ∀ (s t : State) (len : Word) (lost : List Nat) (sh : Memory) (lens : Store Word) (present : Store Bool),
    Inv s → FullSet s len → DataWritten s len → exec .rsEncode s = .next t →
    lost.Nodup → (∀ k ∈ lost, k < s.nTotal) → lost.length ≤ s.nParity →
    (∀ k o, k ∉ lost → o < 2 ^ 32 → Store.get? sh (shKey k o) = t.byte? k o) →
    (∀ k, k ∉ lost → Store.get? lens k = Store.get? t.slotLen k) →
    (∀ k, Store.get? present k = if k ∈ lost then some false else Store.get? t.slotPresent k) →
    ∃ u, exec .rsReconstruct { t with sh := sh, slotLen := lens, slotPresent := present } = .next u ∧
      u.status.err = false ∧
      (∀ k < s.nTotal, ∀ o < len.toNat, u.byte? k o = t.byte? k o) ∧
      (∀ k < s.nTotal, Store.get? u.slotLen k = some len ∧ Store.get? u.slotPresent k = some true)

/-- Slots at or beyond `n_total`, and bytes at or beyond the common length, do not affect the outcome of RS_VERIFY
(44_rs_engine.md R248). Bytes and elements of the set that have not been written since reset draw the same values in
both runs, since the model's draw depends on its counter and the location (log 2, log 3). -/
def Obligations.VerifyIgnoresWhatLiesOutsideTheSet : Prop :=
  ∀ (s t t' : State) (len : Word) (sh : Memory) (lens : Store Word) (present : Store Bool), FullSet s len →
    1 ≤ s.nTotal →
    (∀ k < s.nTotal, ∀ o < len.toNat, Store.get? sh (shKey k o) = s.byte? k o) →
    (∀ k < s.nTotal, Store.get? lens k = Store.get? s.slotLen k ∧ Store.get? present k = Store.get? s.slotPresent k) →
    exec .rsVerify s = .next t → exec .rsVerify { s with sh := sh, slotLen := lens, slotPresent := present } = .next t' →
    t'.status = t.status

/-! ### Invariants and whole-machine rules -/

/-- The invariant holds after reset, for parameters in range. -/
def Obligations.ResetSatisfiesInvariant : Prop := ∀ p : Params, p.wf = true → Inv (State.resetOf p)

/-- Every step keeps the control invariant: `PEND` valid exactly while busy, `ERR` exactly with an error code, no
reserved code (10_state.md R35, R63; 60_exceptions.md R291). -/
def Obligations.StepKeepsControlInvariant : Prop :=
  ∀ s t : State, ControlInv s → step s = .next t → ControlInv t

/-- Every step keeps every array in canonical form and inside the capacities, and every count and shape in its range
(10_state.md R46, R52, R54, R55; 44_rs_engine.md R259). -/
def Obligations.StepKeepsArraysInRange : Prop :=
  ∀ s t : State, s.params.wf = true → ArrayInv s → step s = .next t → ArrayInv t

/-- Every step keeps the invariant of the engine instance: while `CONFIGURED = 1`, `M[ENC]` is the encoding matrix of the
latched counts and width (44_rs_engine.md R255). -/
def Obligations.StepKeepsEngineInstanceValid : Prop :=
  ∀ s t : State, s.params.wf = true → EngineInv s → step s = .next t → EngineInv t

/-- Only a successful RS_CONSTRUCT and reset change the engine instance: any other step keeps counts, width,
`CONFIGURED` and every element of `M[ENC]` (10_state.md R40, 44_rs_engine.md R254). The agenda is the model's own
(log 5). -/
def Obligations.InstanceChangesOnlyByConstructOrReset : Prop :=
  ∀ s t : State, s.params.wf = true → step s = .next t → SameInstance s t ∨ (∃ rest, s.agenda = .reset :: rest) ∨
    ∃ v w, (s.agenda = [] ∨ ∃ rest, s.agenda = .engine :: rest) ∧ s.status.busy = true ∧ s.pend = some v ∧
      decode v = .ok (.rsConstruct w) ∧ t.status.busy = false ∧ t.status.err = false

/-- Only RS_ENCODE, RS_RECONSTRUCT, reset and the host's writes change shard memory or a slot descriptor: an engine step
that completes any other word leaves them all (20_memory.md R108). The agenda is the model's own (log 5). -/
def Obligations.EngineWriteSets : Prop :=
  ∀ (s t : State) (v : Word), s.status.busy = true → s.pend = some v →
    (s.agenda = [] ∨ ∃ rest, s.agenda = .engine :: rest) → step s = .next t →
    (decode v ≠ .ok .rsReconstruct → t.slotLen = s.slotLen ∧ t.slotPresent = s.slotPresent) ∧
    (decode v ≠ .ok .rsReconstruct → decode v ≠ .ok .rsEncode → t.sh = s.sh)

/-- `ACCERR` is sticky: a step clears it only as a host write of `STATUS`, in its block, or as a reset
(60_exceptions.md R296). The agenda is the model's own (log 5). -/
def Obligations.AccessErrorIsSticky : Prop :=
  ∀ s t : State, step s = .next t → s.status.accErr = true → t.status.accErr = false →
    (∃ rest, s.agenda = .reset :: rest) ∨
    ∃ lanes v rest addr, s.agenda = .host (.write addr lanes) :: rest ∧ blockOffset s.params addr = some 0x0C ∧
      wordOfLanes lanes = some v ∧ v.getLsbD 6 = true

/-- A reset step, also while a command is pending, discards it and leaves exactly the reset state: `STATUS` reads 0, `IRQ`
is 0, no register but the constants holds anything but 0, every shape is `(0, 0)`, and no array location counts as
written (10_state.md R65; 70_reset_and_hazards.md R320, R322, R323). The agenda is the model's own (log 5). -/
def Obligations.ResetStepClearsEverything : Prop :=
  ∀ (s : State) (rest : List Turn), s.agenda = .reset :: rest → ∃ t, step s = .next t ∧
    t.status.word = 0 ∧ t.irq = false ∧ t.pend = none ∧ t.params = s.params ∧
    (∀ r : Reg, r ≠ .id → r ≠ .capNmax → r ≠ .capShcap → r ≠ .matData → r ≠ .idxData → r ≠ .slotLen →
      r ≠ .slotPresent → r ≠ .shData → r ≠ .tblData → ∃ u, readReg r t = some (0, u)) ∧
    (∀ m, t.shapes.get m = ⟨0, 0⟩) ∧ (∀ m r c, t.elem? m r c = none) ∧ (∀ j, Store.get? t.idx j = none) ∧
    (∀ k, Store.get? t.slotLen k = none ∧ Store.get? t.slotPresent k = none) ∧ (∀ k o, t.byte? k o = none)

/-! ### The bus -/

/-- Reserved offsets: a read returns 0 and sets `ACCERR`, a write is ignored and sets `ACCERR` (10_state.md R61). -/
def Obligations.ReservedOffsetsRejected : Prop :=
  ∀ (off : BitVec 8) (v : Word) (s : State),
    off ∈ [0x2C, 0x54, 0x58, 0x5C, 0x6C, 0x8C] ∨ (0x9C ≤ off.toNat ∧ off.toNat ≤ 0xFC) →
    busRead off s = (0, rejectedAccess s) ∧ busWrite off v s = rejectedAccess s

/-- An access of another size than 32 bits, or at an unaligned offset of the block, is rejected: a read returns zeros, a
write has no effect, and `ACCERR` is set (20_memory.md R92, R96). That the zeros are one for each byte, left in
`busData`, and that an access belongs to the offset where it starts, is the model's choice (log 8), and the agenda is the
model's own (log 5). -/
def Obligations.UnalignedOrPartialAccessRejected : Prop :=
  ∀ (s : State) (rest : List Turn) (addr size : Nat) (lanes : List Byte), s.params.wf = true →
    s.params.base ≤ addr → addr < s.params.base + 256 →
    (s.agenda = .host (.read addr size) :: rest → size ≠ 4 ∨ addr % 4 ≠ 0 →
      step s = .next { rejectedAccess s with agenda := rest, busData := List.replicate size 0 }) ∧
    (s.agenda = .host (.write addr lanes) :: rest → lanes.length ≠ 4 ∨ addr % 4 ≠ 0 →
      step s = .next { rejectedAccess s with agenda := rest })

/-- The busy lock: while `BUSY = 1` every access is rejected but reads of `ID`, `CAP_NMAX`, `CAP_SHCAP`, `STATUS` and
`INT_EN`, which change nothing, and writes of `STATUS` and `INT_EN`, which change `DONE`, `ACCERR` and `INT_EN` at most
(20_memory.md R97). -/
def Obligations.BusyLock : Prop :=
  ∀ (off : BitVec 8) (v : Word) (s : State), s.status.busy = true →
    (off ∉ [0x00, 0x04, 0x08, 0x0C, 0x14] → busRead off s = (0, rejectedAccess s)) ∧
    (off ∈ [0x00, 0x04, 0x08, 0x0C, 0x14] → (busRead off s).2 = s) ∧
    (off ∉ [0x0C, 0x14] → busWrite off v s = rejectedAccess s) ∧
    (off ∈ [0x0C, 0x14] → ((busWrite off v s).status.accErr = true → s.status.accErr = true) ∧
      ∃ d a e, busWrite off v s = { s with status := { s.status with done := d, accErr := a }, intEn := e })

/-- An accepted write of `CMD` issues the word, legal or not, and changes nothing but `PEND`, `BUSY`, `DONE`, `ERR` and
`ERRCODE`; while busy it is rejected (40_command_lifecycle.md R150, 10_state.md R39). -/
def Obligations.CommandWriteIssues : Prop :=
  ∀ (v : Word) (s : State),
    (s.status.busy = false → busWrite 0x10 v s = { s with
      pend := some v
      status := { s.status with busy := true, done := false, err := false, errCode := 0 } }) ∧
    (s.status.busy = true → busWrite 0x10 v s = rejectedAccess s)

/-- A write of `STATUS` is accepted at any time; bit 1 clears `DONE`, bit 6 clears `ACCERR`, the rest is ignored
(10_state.md R36). -/
def Obligations.StatusWriteClearsByOne : Prop :=
  ∀ (v : Word) (s : State), busWrite 0x0C v s = { s with
    status := { s.status with
      done := if v.getLsbD 1 then false else s.status.done
      accErr := if v.getLsbD 6 then false else s.status.accErr } }

/-- A read of `STATUS` returns each field at its bit and 0 elsewhere, at any time, and changes nothing
(10_state.md R35). -/
def Obligations.StatusReadLayout : Prop :=
  ∀ s : State, ∃ v, busRead 0x0C s = (v, s) ∧
    v.getLsbD 0 = s.status.busy ∧ v.getLsbD 1 = s.status.done ∧ v.getLsbD 2 = s.status.err ∧
    v.getLsbD 3 = s.status.verifyOk ∧ v.getLsbD 4 = s.status.configured ∧ v.getLsbD 5 = s.status.engW16 ∧
    v.getLsbD 6 = s.status.accErr ∧ v.getLsbD 7 = false ∧ v.extractLsb' 8 4 = s.status.errCode ∧
    ∀ k, 12 ≤ k → v.getLsbD k = false

/-- A write of a plain register, while idle, stores the low bits of the word in the field of that register, as many as it
has, and changes nothing else, `ACCERR` included; a read returns that field, zero-extended, and changes nothing.
`INT_EN` does both at any time (10_state.md R31, R37, R41 to R44, R50, R53, R56, R58, R60, R62, R64). -/
def Obligations.PlainRegistersStoreLowBits : Prop :=
  ∀ (v : Word) (s : State),
    (busWrite 0x14 v s = { s with intEn := BitVec.ofNat 2 v.toNat } ∧
      busRead 0x14 s = (BitVec.ofNat 32 s.intEn.toNat, s)) ∧
    (s.status.busy = false →
      (busWrite 0x18 v s = { s with cfgNdata := BitVec.ofNat 16 v.toNat } ∧
        busRead 0x18 s = (BitVec.ofNat 32 s.cfgNdata.toNat, s)) ∧
      (busWrite 0x1C v s = { s with cfgNparity := BitVec.ofNat 16 v.toNat } ∧
        busRead 0x1C s = (BitVec.ofNat 32 s.cfgNparity.toNat, s)) ∧
      (busWrite 0x28 v s = { s with argN := BitVec.ofNat 16 v.toNat } ∧
        busRead 0x28 s = (BitVec.ofNat 32 s.argN.toNat, s)) ∧
      (busWrite 0x30 v s = { s with gfA := BitVec.ofNat 16 v.toNat } ∧
        busRead 0x30 s = (BitVec.ofNat 32 s.gfA.toNat, s)) ∧
      (busWrite 0x34 v s = { s with gfB := BitVec.ofNat 16 v.toNat } ∧
        busRead 0x34 s = (BitVec.ofNat 32 s.gfB.toNat, s)) ∧
      (busWrite 0x38 v s = { s with gfN := BitVec.ofNat 32 v.toNat } ∧
        busRead 0x38 s = (BitVec.ofNat 32 s.gfN.toNat, s)) ∧
      (busWrite 0x48 v s = { s with matRow := BitVec.ofNat 16 v.toNat } ∧
        busRead 0x48 s = (BitVec.ofNat 32 s.matRow.toNat, s)) ∧
      (busWrite 0x4C v s = { s with matCol := BitVec.ofNat 16 v.toNat } ∧
        busRead 0x4C s = (BitVec.ofNat 32 s.matCol.toNat, s)) ∧
      (busWrite 0x64 v s = { s with idxPtr := BitVec.ofNat 16 v.toNat } ∧
        busRead 0x64 s = (BitVec.ofNat 32 s.idxPtr.toNat, s)) ∧
      (busWrite 0x74 v s = { s with slotSel := BitVec.ofNat 16 v.toNat } ∧
        busRead 0x74 s = (BitVec.ofNat 32 s.slotSel.toNat, s)) ∧
      (busWrite 0x80 v s = { s with shSlot := BitVec.ofNat 16 v.toNat } ∧
        busRead 0x80 s = (BitVec.ofNat 32 s.shSlot.toNat, s)) ∧
      (busWrite 0x84 v s = { s with shOff := BitVec.ofNat 32 v.toNat } ∧
        busRead 0x84 s = (BitVec.ofNat 32 s.shOff.toNat, s)) ∧
      (busWrite 0x90 v s = { s with tblSel := BitVec.ofNat 2 v.toNat } ∧
        busRead 0x90 s = (BitVec.ofNat 32 s.tblSel.toNat, s)) ∧
      (busWrite 0x94 v s = { s with tblIdx := BitVec.ofNat 16 v.toNat } ∧
        busRead 0x94 s = (BitVec.ofNat 32 s.tblIdx.toNat, s)))

/-- While idle, a range-checked register keeps its value and sets `ACCERR` on a value out of range, and otherwise stores
it, and nothing else changes; the stored values read back (10_state.md R48, R49, R52, R55; 20_memory.md R102, whose
accepted write of `SLOT_LEN` and whose reads are in IndexDescriptorAndTableWindows). -/
def Obligations.RangeCheckedRegisters : Prop :=
  ∀ (v : Word) (s : State), s.status.busy = false → s.params.wf = true →
    (4 < v.toNat → busWrite 0x40 v s = rejectedAccess s) ∧
    (v.toNat ≤ 4 → ∃ m : MatReg, m.num = v.toNat ∧ busWrite 0x40 v s = { s with matSel := m }) ∧
    (s.matSel = .enc ∨ s.params.nMax < v.toNat / 2 ^ 16 ∨ s.params.nMax < v.toNat % 2 ^ 16 →
      busWrite 0x44 v s = rejectedAccess s) ∧
    (s.matSel ≠ .enc → v.toNat / 2 ^ 16 ≤ s.params.nMax → v.toNat % 2 ^ 16 ≤ s.params.nMax →
      busWrite 0x44 v s = { s with
        shapes := s.shapes.set s.matSel ⟨BitVec.ofNat 16 (v.toNat / 2 ^ 16), BitVec.ofNat 16 (v.toNat % 2 ^ 16)⟩ }) ∧
    (s.params.nMax < v.toNat → busWrite 0x60 v s = rejectedAccess s ∧ busWrite 0x70 v s = rejectedAccess s) ∧
    (v.toNat ≤ s.params.nMax → busWrite 0x60 v s = { s with idxCount := BitVec.ofNat 16 v.toNat } ∧
      busWrite 0x70 v s = { s with slotCount := BitVec.ofNat 16 v.toNat }) ∧
    (s.params.nMax ≤ s.slotSel.toNat ∨ s.params.shardCap < v.toNat → busWrite 0x78 v s = rejectedAccess s) ∧
    busRead 0x40 s = (BitVec.ofNat 32 s.matSel.num, s) ∧
    busRead 0x44 s =
      (BitVec.ofNat 32 ((s.shapes.get s.matSel).rows.toNat * 2 ^ 16 + (s.shapes.get s.matSel).cols.toNat), s) ∧
    busRead 0x60 s = (BitVec.ofNat 32 s.idxCount.toNat, s) ∧ busRead 0x70 s = (BitVec.ofNat 32 s.slotCount.toNat, s)

/-- Writes of the read-only registers are rejected at any time. Reads of `ID`, `CAP_NMAX` and `CAP_SHCAP` return the
constants at any time; while idle, reads of `ENG_NDATA`, `ENG_NPARITY` and `GF_R` return the latched values and a read
of `CMD` returns 0. No such read changes anything (10_state.md R32, R33, R34, R39, R40, R45, R62). -/
def Obligations.ReadOnlyRegisters : Prop :=
  ∀ (v : Word) (s : State),
    (∀ off ∈ [0x00, 0x04, 0x08, 0x20, 0x24, 0x3C, 0x98], busWrite off v s = rejectedAccess s) ∧
    busRead 0x00 s = (0x45435254, s) ∧ busRead 0x04 s = (BitVec.ofNat 32 s.params.nMax, s) ∧
    busRead 0x08 s = (BitVec.ofNat 32 s.params.shardCap, s) ∧
    (s.status.busy = false →
      busRead 0x20 s = (BitVec.ofNat 32 s.engNdata.toNat, s) ∧
      busRead 0x24 s = (BitVec.ofNat 32 s.engNparity.toNat, s) ∧ busRead 0x3C s = (BitVec.ofNat 32 s.gfR.toNat, s) ∧
      busRead 0x10 s = (0, s))

/-- The matrix window, while idle: an access in range reaches the element at the pointer and moves `MAT_COL` on by one
without carrying into `MAT_ROW`; a write reaches that element alone; `M[ENC]` is readable and not writable; an
access out of range is rejected (20_memory.md R98, R99). -/
def Obligations.MatrixWindow : Prop :=
  ∀ (v : Word) (s : State), s.status.busy = false → s.params.wf = true →
    let inRange := s.matRow.toNat < s.params.nMax ∧ s.matCol.toNat < s.params.nMax
    (¬ inRange → busRead 0x50 s = (0, rejectedAccess s)) ∧
    (inRange → (∀ x, s.elem? s.matSel s.matRow.toNat s.matCol.toNat = some x →
        (busRead 0x50 s).1 = BitVec.ofNat 32 x.toNat) ∧
      (busRead 0x50 s).2 = { s with matCol := BitVec.ofNat 16 (s.matCol.toNat + 1), draws := s.draws + 1 }) ∧
    (s.matSel = .enc ∨ ¬ inRange → busWrite 0x50 v s = rejectedAccess s) ∧
    (s.matSel ≠ .enc → inRange → ∃ t, busWrite 0x50 v s = t ∧
      t.elem? s.matSel s.matRow.toNat s.matCol.toNat = some (BitVec.ofNat 16 v.toNat) ∧
      (∀ m r c, r < 2 ^ 16 → c < 2 ^ 16 → (m ≠ s.matSel ∨ r ≠ s.matRow.toNat ∨ c ≠ s.matCol.toNat) →
        t.elem? m r c = s.elem? m r c) ∧
      t = { s with el := t.el, matCol := BitVec.ofNat 16 (s.matCol.toNat + 1) })

/-- The shard window, while idle: an access in range reaches the byte at the pointer and moves `SH_OFF` on by one,
whatever the slot's declared length; a write reaches that byte alone; an access out of range is rejected
(20_memory.md R98, R101). -/
def Obligations.ShardWindow : Prop :=
  ∀ (v : Word) (s : State), s.status.busy = false → s.params.wf = true →
    let inRange := s.shSlot.toNat < s.params.nMax ∧ s.shOff.toNat < s.params.shardCap
    (¬ inRange → busRead 0x88 s = (0, rejectedAccess s) ∧ busWrite 0x88 v s = rejectedAccess s) ∧
    (inRange → (∀ b, s.byte? s.shSlot.toNat s.shOff.toNat = some b → (busRead 0x88 s).1 = BitVec.ofNat 32 b.toNat) ∧
      (busRead 0x88 s).2 = { s with shOff := BitVec.ofNat 32 (s.shOff.toNat + 1), draws := s.draws + 1 } ∧
      ∃ t, busWrite 0x88 v s = t ∧ t.byte? s.shSlot.toNat s.shOff.toNat = some (BitVec.ofNat 8 v.toNat) ∧
        (∀ k o, o < 2 ^ 32 → (k ≠ s.shSlot.toNat ∨ o ≠ s.shOff.toNat) → t.byte? k o = s.byte? k o) ∧
        t = { s with sh := t.sh, shOff := BitVec.ofNat 32 (s.shOff.toNat + 1) })

/-- The index window, the descriptor windows and the table window, while idle: what an access in range reads or writes,
which pointer moves, and that an access out of range is rejected (20_memory.md R98, R100, R102, R103). -/
def Obligations.IndexDescriptorAndTableWindows : Prop :=
  ∀ (v : Word) (s : State), s.status.busy = false →
    (s.params.nMax ≤ s.idxPtr.toNat → busRead 0x68 s = (0, rejectedAccess s) ∧ busWrite 0x68 v s = rejectedAccess s) ∧
    (s.idxPtr.toNat < s.params.nMax → ∃ t, busWrite 0x68 v s = t ∧
      (∀ j, Store.get? t.idx j = if j = s.idxPtr.toNat then some (BitVec.ofNat 16 v.toNat) else Store.get? s.idx j) ∧
      t = { s with idx := t.idx, idxPtr := BitVec.ofNat 16 (s.idxPtr.toNat + 1) } ∧
      (∀ x, Store.get? s.idx s.idxPtr.toNat = some x → busRead 0x68 s =
        (BitVec.ofNat 32 x.toNat, { s with idxPtr := BitVec.ofNat 16 (s.idxPtr.toNat + 1), draws := s.draws + 1 }))) ∧
    (s.slotSel.toNat < s.params.nMax → ∃ t u, busWrite 0x7C v s = t ∧
      (∀ k, Store.get? t.slotPresent k =
        if k = s.slotSel.toNat then some (v.getLsbD 0) else Store.get? s.slotPresent k) ∧
      t = { s with slotPresent := t.slotPresent } ∧
      (v.toNat ≤ s.params.shardCap → busWrite 0x78 v s = u ∧
        (∀ k, Store.get? u.slotLen k = if k = s.slotSel.toNat then some v else Store.get? s.slotLen k) ∧
        u = { s with slotLen := u.slotLen }) ∧
      (∀ x, Store.get? s.slotLen s.slotSel.toNat = some x → busRead 0x78 s = (x, { s with draws := s.draws + 1 })) ∧
      (∀ b, Store.get? s.slotPresent s.slotSel.toNat = some b →
        busRead 0x7C s = (if b then 1 else 0, { s with draws := s.draws + 1 }))) ∧
    (s.params.nMax ≤ s.slotSel.toNat → busRead 0x78 s = (0, rejectedAccess s) ∧
      busRead 0x7C s = (0, rejectedAccess s) ∧ busWrite 0x7C v s = rejectedAccess s) ∧
    (2 ≤ s.tblSel.toNat ∨ s.tblIdx.toNat < 256 → ∃ x : Nat, busRead 0x98 s =
        (BitVec.ofNat 32 x, { s with tblIdx := BitVec.ofNat 16 (s.tblIdx.toNat + 1) }) ∧
      (s.tblSel = 0 → x = logTable .w8 s.tblIdx) ∧ (s.tblSel = 1 → x = (expTable .w8 s.tblIdx.toNat).toNat) ∧
      (s.tblSel = 2 → x = logTable .w16 s.tblIdx) ∧ (s.tblSel = 3 → x = (expTable .w16 s.tblIdx.toNat).toNat)) ∧
    (s.tblSel.toNat < 2 → 256 ≤ s.tblIdx.toNat → busRead 0x98 s = (0, rejectedAccess s))

/-- A host turn of 4 bytes at an aligned address of the block is the bus access at that offset, with little-endian byte
lanes: byte address `addr + k` carries bits `8k+7:8k` of the value that a read returns or a write stores
(20_memory.md R90, R91). The agenda and `busData`, where a read leaves its lanes, are the model's own (log 5, log 8). -/
def Obligations.BusLanesAreLittleEndian : Prop :=
  ∀ (s : State) (rest : List Turn) (addr : Nat), s.params.wf = true →
    s.params.base ≤ addr → addr < s.params.base + 256 → addr % 4 = 0 →
    let off := BitVec.ofNat 8 (addr - s.params.base)
    let u := { s with agenda := rest }
    let lane := fun (v : Word) (k : Nat) => BitVec.ofNat 8 (v.toNat / 2 ^ (8 * k))
    (s.agenda = .host (.read addr 4) :: rest → ∃ lanes : List Byte, lanes.length = 4 ∧
      (∀ k < 4, lanes[k]? = some (lane (busRead off u).1 k)) ∧
      step s = .next { (busRead off u).2 with busData := lanes }) ∧
    (∀ (lanes : List Byte) (v : Word), s.agenda = .host (.write addr lanes) :: rest → lanes.length = 4 →
      (∀ k < 4, lanes[k]? = some (lane v k)) → step s = .next (busWrite off v u))

/-- The interrupt. `IRQ` is up exactly when `DONE` is set with bit 0 of `INT_EN`, or `ACCERR` with bit 1. So it is up after
any completion with `DONE_IE` and after any rejected read or write with `ACCERR_IE`; a write of `STATUS` takes away the
sources whose bits it clears, a write of `INT_EN` replaces the enables at once, and an issue takes away `DONE`
(60_exceptions.md R295). -/
def Obligations.InterruptFollowsStatusAndEnables : Prop :=
  ∀ (i : Instr) (s t : State) (off : BitVec 8) (v : Word),
    let doneIe := s.intEn.getLsbD 0 = true
    let accErrIe := s.intEn.getLsbD 1 = true
    let done := s.status.done = true
    let accErr := s.status.accErr = true
    (s.irq = true ↔ (done ∧ doneIe) ∨ (accErr ∧ accErrIe)) ∧
    (exec i s = .next t → doneIe → t.irq = true) ∧
    (busWrite off v s = rejectedAccess s → accErrIe → (busWrite off v s).irq = true) ∧
    (busRead off s = (0, rejectedAccess s) → accErrIe → (busRead off s).2.irq = true) ∧
    ((busWrite 0x0C v s).irq = true ↔
      (done ∧ v.getLsbD 1 = false ∧ doneIe) ∨ (accErr ∧ v.getLsbD 6 = false ∧ accErrIe)) ∧
    ((busWrite 0x14 v s).irq = true ↔ (done ∧ v.getLsbD 0 = true) ∨ (accErr ∧ v.getLsbD 1 = true)) ∧
    (s.status.busy = false → ((busWrite 0x10 v s).irq = true ↔ accErr ∧ accErrIe))
end

