-- ==== Sys2Proof/Laws/State.lean ====
section
/-! SUPPORT. Every field after every named update of the state: the frame laws, true by definition. -/

namespace Sys2Proof.Machine

variable (s : State) (t : Status)

/-! ### issued -/

@[simp] theorem Status.issued_busy : (t.issued).busy = true := rfl
@[simp] theorem Status.issued_done : (t.issued).done = false := rfl
@[simp] theorem Status.issued_err : (t.issued).err = false := rfl
@[simp] theorem Status.issued_verifyOk : (t.issued).verifyOk = t.verifyOk := rfl
@[simp] theorem Status.issued_configured : (t.issued).configured = t.configured := rfl
@[simp] theorem Status.issued_engW16 : (t.issued).engW16 = t.engW16 := rfl
@[simp] theorem Status.issued_accErr : (t.issued).accErr = t.accErr := rfl
@[simp] theorem Status.issued_errCode : (t.issued).errCode = 0 := rfl

/-! ### completed -/

@[simp] theorem Status.completed_busy (o : Option CmdError) : (t.completed o).busy = false := rfl
@[simp] theorem Status.completed_done (o : Option CmdError) : (t.completed o).done = true := rfl
@[simp] theorem Status.completed_err (o : Option CmdError) : (t.completed o).err = o.isSome := rfl
@[simp] theorem Status.completed_verifyOk (o : Option CmdError) : (t.completed o).verifyOk = t.verifyOk := rfl
@[simp] theorem Status.completed_configured (o : Option CmdError) : (t.completed o).configured = t.configured := rfl
@[simp] theorem Status.completed_engW16 (o : Option CmdError) : (t.completed o).engW16 = t.engW16 := rfl
@[simp] theorem Status.completed_accErr (o : Option CmdError) : (t.completed o).accErr = t.accErr := rfl
@[simp] theorem Status.completed_errCode (o : Option CmdError) : (t.completed o).errCode = outcomeCode o := rfl

/-! ### clearedBy -/

@[simp] theorem Status.clearedBy_busy (v : Word) : (t.clearedBy v).busy = t.busy := rfl
@[simp] theorem Status.clearedBy_done (v : Word) : (t.clearedBy v).done = (t.done && !v.getLsbD 1) := rfl
@[simp] theorem Status.clearedBy_err (v : Word) : (t.clearedBy v).err = t.err := rfl
@[simp] theorem Status.clearedBy_verifyOk (v : Word) : (t.clearedBy v).verifyOk = t.verifyOk := rfl
@[simp] theorem Status.clearedBy_configured (v : Word) : (t.clearedBy v).configured = t.configured := rfl
@[simp] theorem Status.clearedBy_engW16 (v : Word) : (t.clearedBy v).engW16 = t.engW16 := rfl
@[simp] theorem Status.clearedBy_accErr (v : Word) : (t.clearedBy v).accErr = (t.accErr && !v.getLsbD 6) := rfl
@[simp] theorem Status.clearedBy_errCode (v : Word) : (t.clearedBy v).errCode = t.errCode := rfl

/-! ### rejected -/

@[simp] theorem Status.rejected_busy : (t.rejected).busy = t.busy := rfl
@[simp] theorem Status.rejected_done : (t.rejected).done = t.done := rfl
@[simp] theorem Status.rejected_err : (t.rejected).err = t.err := rfl
@[simp] theorem Status.rejected_verifyOk : (t.rejected).verifyOk = t.verifyOk := rfl
@[simp] theorem Status.rejected_configured : (t.rejected).configured = t.configured := rfl
@[simp] theorem Status.rejected_engW16 : (t.rejected).engW16 = t.engW16 := rfl
@[simp] theorem Status.rejected_accErr : (t.rejected).accErr = true := rfl
@[simp] theorem Status.rejected_errCode : (t.rejected).errCode = t.errCode := rfl

/-! ### issue -/

@[simp] theorem State.issue_params (v : Word) : (s.issue v).params = s.params := rfl
@[simp] theorem State.issue_status (v : Word) : (s.issue v).status = s.status.issued := rfl
@[simp] theorem State.issue_pend (v : Word) : (s.issue v).pend = some v := rfl
@[simp] theorem State.issue_intEn (v : Word) : (s.issue v).intEn = s.intEn := rfl
@[simp] theorem State.issue_cfgNdata (v : Word) : (s.issue v).cfgNdata = s.cfgNdata := rfl
@[simp] theorem State.issue_cfgNparity (v : Word) : (s.issue v).cfgNparity = s.cfgNparity := rfl
@[simp] theorem State.issue_engNdata (v : Word) : (s.issue v).engNdata = s.engNdata := rfl
@[simp] theorem State.issue_engNparity (v : Word) : (s.issue v).engNparity = s.engNparity := rfl
@[simp] theorem State.issue_argN (v : Word) : (s.issue v).argN = s.argN := rfl
@[simp] theorem State.issue_gfA (v : Word) : (s.issue v).gfA = s.gfA := rfl
@[simp] theorem State.issue_gfB (v : Word) : (s.issue v).gfB = s.gfB := rfl
@[simp] theorem State.issue_gfN (v : Word) : (s.issue v).gfN = s.gfN := rfl
@[simp] theorem State.issue_gfR (v : Word) : (s.issue v).gfR = s.gfR := rfl
@[simp] theorem State.issue_matSel (v : Word) : (s.issue v).matSel = s.matSel := rfl
@[simp] theorem State.issue_shapes (v : Word) : (s.issue v).shapes = s.shapes := rfl
@[simp] theorem State.issue_matRow (v : Word) : (s.issue v).matRow = s.matRow := rfl
@[simp] theorem State.issue_matCol (v : Word) : (s.issue v).matCol = s.matCol := rfl
@[simp] theorem State.issue_el (v : Word) : (s.issue v).el = s.el := rfl
@[simp] theorem State.issue_idxCount (v : Word) : (s.issue v).idxCount = s.idxCount := rfl
@[simp] theorem State.issue_idxPtr (v : Word) : (s.issue v).idxPtr = s.idxPtr := rfl
@[simp] theorem State.issue_idx (v : Word) : (s.issue v).idx = s.idx := rfl
@[simp] theorem State.issue_slotCount (v : Word) : (s.issue v).slotCount = s.slotCount := rfl
@[simp] theorem State.issue_slotSel (v : Word) : (s.issue v).slotSel = s.slotSel := rfl
@[simp] theorem State.issue_slotLen (v : Word) : (s.issue v).slotLen = s.slotLen := rfl
@[simp] theorem State.issue_slotPresent (v : Word) : (s.issue v).slotPresent = s.slotPresent := rfl
@[simp] theorem State.issue_shSlot (v : Word) : (s.issue v).shSlot = s.shSlot := rfl
@[simp] theorem State.issue_shOff (v : Word) : (s.issue v).shOff = s.shOff := rfl
@[simp] theorem State.issue_sh (v : Word) : (s.issue v).sh = s.sh := rfl
@[simp] theorem State.issue_tblSel (v : Word) : (s.issue v).tblSel = s.tblSel := rfl
@[simp] theorem State.issue_tblIdx (v : Word) : (s.issue v).tblIdx = s.tblIdx := rfl
@[simp] theorem State.issue_draws (v : Word) : (s.issue v).draws = s.draws := rfl
@[simp] theorem State.issue_agenda (v : Word) : (s.issue v).agenda = s.agenda := rfl
@[simp] theorem State.issue_busData (v : Word) : (s.issue v).busData = s.busData := rfl

/-! ### finish -/

@[simp] theorem State.finish_params (o : Option CmdError) : (s.finish o).params = s.params := rfl
@[simp] theorem State.finish_status (o : Option CmdError) : (s.finish o).status = s.status.completed o := rfl
@[simp] theorem State.finish_pend (o : Option CmdError) : (s.finish o).pend = none := rfl
@[simp] theorem State.finish_intEn (o : Option CmdError) : (s.finish o).intEn = s.intEn := rfl
@[simp] theorem State.finish_cfgNdata (o : Option CmdError) : (s.finish o).cfgNdata = s.cfgNdata := rfl
@[simp] theorem State.finish_cfgNparity (o : Option CmdError) : (s.finish o).cfgNparity = s.cfgNparity := rfl
@[simp] theorem State.finish_engNdata (o : Option CmdError) : (s.finish o).engNdata = s.engNdata := rfl
@[simp] theorem State.finish_engNparity (o : Option CmdError) : (s.finish o).engNparity = s.engNparity := rfl
@[simp] theorem State.finish_argN (o : Option CmdError) : (s.finish o).argN = s.argN := rfl
@[simp] theorem State.finish_gfA (o : Option CmdError) : (s.finish o).gfA = s.gfA := rfl
@[simp] theorem State.finish_gfB (o : Option CmdError) : (s.finish o).gfB = s.gfB := rfl
@[simp] theorem State.finish_gfN (o : Option CmdError) : (s.finish o).gfN = s.gfN := rfl
@[simp] theorem State.finish_gfR (o : Option CmdError) : (s.finish o).gfR = s.gfR := rfl
@[simp] theorem State.finish_matSel (o : Option CmdError) : (s.finish o).matSel = s.matSel := rfl
@[simp] theorem State.finish_shapes (o : Option CmdError) : (s.finish o).shapes = s.shapes := rfl
@[simp] theorem State.finish_matRow (o : Option CmdError) : (s.finish o).matRow = s.matRow := rfl
@[simp] theorem State.finish_matCol (o : Option CmdError) : (s.finish o).matCol = s.matCol := rfl
@[simp] theorem State.finish_el (o : Option CmdError) : (s.finish o).el = s.el := rfl
@[simp] theorem State.finish_idxCount (o : Option CmdError) : (s.finish o).idxCount = s.idxCount := rfl
@[simp] theorem State.finish_idxPtr (o : Option CmdError) : (s.finish o).idxPtr = s.idxPtr := rfl
@[simp] theorem State.finish_idx (o : Option CmdError) : (s.finish o).idx = s.idx := rfl
@[simp] theorem State.finish_slotCount (o : Option CmdError) : (s.finish o).slotCount = s.slotCount := rfl
@[simp] theorem State.finish_slotSel (o : Option CmdError) : (s.finish o).slotSel = s.slotSel := rfl
@[simp] theorem State.finish_slotLen (o : Option CmdError) : (s.finish o).slotLen = s.slotLen := rfl
@[simp] theorem State.finish_slotPresent (o : Option CmdError) : (s.finish o).slotPresent = s.slotPresent := rfl
@[simp] theorem State.finish_shSlot (o : Option CmdError) : (s.finish o).shSlot = s.shSlot := rfl
@[simp] theorem State.finish_shOff (o : Option CmdError) : (s.finish o).shOff = s.shOff := rfl
@[simp] theorem State.finish_sh (o : Option CmdError) : (s.finish o).sh = s.sh := rfl
@[simp] theorem State.finish_tblSel (o : Option CmdError) : (s.finish o).tblSel = s.tblSel := rfl
@[simp] theorem State.finish_tblIdx (o : Option CmdError) : (s.finish o).tblIdx = s.tblIdx := rfl
@[simp] theorem State.finish_draws (o : Option CmdError) : (s.finish o).draws = s.draws + 1 := rfl
@[simp] theorem State.finish_agenda (o : Option CmdError) : (s.finish o).agenda = s.agenda := rfl
@[simp] theorem State.finish_busData (o : Option CmdError) : (s.finish o).busData = s.busData := rfl

/-! ### reject -/

@[simp] theorem State.reject_params : (s.reject).params = s.params := rfl
@[simp] theorem State.reject_status : (s.reject).status = s.status.rejected := rfl
@[simp] theorem State.reject_pend : (s.reject).pend = s.pend := rfl
@[simp] theorem State.reject_intEn : (s.reject).intEn = s.intEn := rfl
@[simp] theorem State.reject_cfgNdata : (s.reject).cfgNdata = s.cfgNdata := rfl
@[simp] theorem State.reject_cfgNparity : (s.reject).cfgNparity = s.cfgNparity := rfl
@[simp] theorem State.reject_engNdata : (s.reject).engNdata = s.engNdata := rfl
@[simp] theorem State.reject_engNparity : (s.reject).engNparity = s.engNparity := rfl
@[simp] theorem State.reject_argN : (s.reject).argN = s.argN := rfl
@[simp] theorem State.reject_gfA : (s.reject).gfA = s.gfA := rfl
@[simp] theorem State.reject_gfB : (s.reject).gfB = s.gfB := rfl
@[simp] theorem State.reject_gfN : (s.reject).gfN = s.gfN := rfl
@[simp] theorem State.reject_gfR : (s.reject).gfR = s.gfR := rfl
@[simp] theorem State.reject_matSel : (s.reject).matSel = s.matSel := rfl
@[simp] theorem State.reject_shapes : (s.reject).shapes = s.shapes := rfl
@[simp] theorem State.reject_matRow : (s.reject).matRow = s.matRow := rfl
@[simp] theorem State.reject_matCol : (s.reject).matCol = s.matCol := rfl
@[simp] theorem State.reject_el : (s.reject).el = s.el := rfl
@[simp] theorem State.reject_idxCount : (s.reject).idxCount = s.idxCount := rfl
@[simp] theorem State.reject_idxPtr : (s.reject).idxPtr = s.idxPtr := rfl
@[simp] theorem State.reject_idx : (s.reject).idx = s.idx := rfl
@[simp] theorem State.reject_slotCount : (s.reject).slotCount = s.slotCount := rfl
@[simp] theorem State.reject_slotSel : (s.reject).slotSel = s.slotSel := rfl
@[simp] theorem State.reject_slotLen : (s.reject).slotLen = s.slotLen := rfl
@[simp] theorem State.reject_slotPresent : (s.reject).slotPresent = s.slotPresent := rfl
@[simp] theorem State.reject_shSlot : (s.reject).shSlot = s.shSlot := rfl
@[simp] theorem State.reject_shOff : (s.reject).shOff = s.shOff := rfl
@[simp] theorem State.reject_sh : (s.reject).sh = s.sh := rfl
@[simp] theorem State.reject_tblSel : (s.reject).tblSel = s.tblSel := rfl
@[simp] theorem State.reject_tblIdx : (s.reject).tblIdx = s.tblIdx := rfl
@[simp] theorem State.reject_draws : (s.reject).draws = s.draws := rfl
@[simp] theorem State.reject_agenda : (s.reject).agenda = s.agenda := rfl
@[simp] theorem State.reject_busData : (s.reject).busData = s.busData := rfl

/-! ### setGfR -/

@[simp] theorem State.setGfR_params (r : Half) : (s.setGfR r).params = s.params := rfl
@[simp] theorem State.setGfR_status (r : Half) : (s.setGfR r).status = s.status := rfl
@[simp] theorem State.setGfR_pend (r : Half) : (s.setGfR r).pend = s.pend := rfl
@[simp] theorem State.setGfR_intEn (r : Half) : (s.setGfR r).intEn = s.intEn := rfl
@[simp] theorem State.setGfR_cfgNdata (r : Half) : (s.setGfR r).cfgNdata = s.cfgNdata := rfl
@[simp] theorem State.setGfR_cfgNparity (r : Half) : (s.setGfR r).cfgNparity = s.cfgNparity := rfl
@[simp] theorem State.setGfR_engNdata (r : Half) : (s.setGfR r).engNdata = s.engNdata := rfl
@[simp] theorem State.setGfR_engNparity (r : Half) : (s.setGfR r).engNparity = s.engNparity := rfl
@[simp] theorem State.setGfR_argN (r : Half) : (s.setGfR r).argN = s.argN := rfl
@[simp] theorem State.setGfR_gfA (r : Half) : (s.setGfR r).gfA = s.gfA := rfl
@[simp] theorem State.setGfR_gfB (r : Half) : (s.setGfR r).gfB = s.gfB := rfl
@[simp] theorem State.setGfR_gfN (r : Half) : (s.setGfR r).gfN = s.gfN := rfl
@[simp] theorem State.setGfR_gfR (r : Half) : (s.setGfR r).gfR = r := rfl
@[simp] theorem State.setGfR_matSel (r : Half) : (s.setGfR r).matSel = s.matSel := rfl
@[simp] theorem State.setGfR_shapes (r : Half) : (s.setGfR r).shapes = s.shapes := rfl
@[simp] theorem State.setGfR_matRow (r : Half) : (s.setGfR r).matRow = s.matRow := rfl
@[simp] theorem State.setGfR_matCol (r : Half) : (s.setGfR r).matCol = s.matCol := rfl
@[simp] theorem State.setGfR_el (r : Half) : (s.setGfR r).el = s.el := rfl
@[simp] theorem State.setGfR_idxCount (r : Half) : (s.setGfR r).idxCount = s.idxCount := rfl
@[simp] theorem State.setGfR_idxPtr (r : Half) : (s.setGfR r).idxPtr = s.idxPtr := rfl
@[simp] theorem State.setGfR_idx (r : Half) : (s.setGfR r).idx = s.idx := rfl
@[simp] theorem State.setGfR_slotCount (r : Half) : (s.setGfR r).slotCount = s.slotCount := rfl
@[simp] theorem State.setGfR_slotSel (r : Half) : (s.setGfR r).slotSel = s.slotSel := rfl
@[simp] theorem State.setGfR_slotLen (r : Half) : (s.setGfR r).slotLen = s.slotLen := rfl
@[simp] theorem State.setGfR_slotPresent (r : Half) : (s.setGfR r).slotPresent = s.slotPresent := rfl
@[simp] theorem State.setGfR_shSlot (r : Half) : (s.setGfR r).shSlot = s.shSlot := rfl
@[simp] theorem State.setGfR_shOff (r : Half) : (s.setGfR r).shOff = s.shOff := rfl
@[simp] theorem State.setGfR_sh (r : Half) : (s.setGfR r).sh = s.sh := rfl
@[simp] theorem State.setGfR_tblSel (r : Half) : (s.setGfR r).tblSel = s.tblSel := rfl
@[simp] theorem State.setGfR_tblIdx (r : Half) : (s.setGfR r).tblIdx = s.tblIdx := rfl
@[simp] theorem State.setGfR_draws (r : Half) : (s.setGfR r).draws = s.draws := rfl
@[simp] theorem State.setGfR_agenda (r : Half) : (s.setGfR r).agenda = s.agenda := rfl
@[simp] theorem State.setGfR_busData (r : Half) : (s.setGfR r).busData = s.busData := rfl

/-! ### setVerifyOk -/

@[simp] theorem State.setVerifyOk_params (b : Bool) : (s.setVerifyOk b).params = s.params := rfl
@[simp] theorem State.setVerifyOk_status (b : Bool) : (s.setVerifyOk b).status = { s.status with verifyOk := b } := rfl
@[simp] theorem State.setVerifyOk_pend (b : Bool) : (s.setVerifyOk b).pend = s.pend := rfl
@[simp] theorem State.setVerifyOk_intEn (b : Bool) : (s.setVerifyOk b).intEn = s.intEn := rfl
@[simp] theorem State.setVerifyOk_cfgNdata (b : Bool) : (s.setVerifyOk b).cfgNdata = s.cfgNdata := rfl
@[simp] theorem State.setVerifyOk_cfgNparity (b : Bool) : (s.setVerifyOk b).cfgNparity = s.cfgNparity := rfl
@[simp] theorem State.setVerifyOk_engNdata (b : Bool) : (s.setVerifyOk b).engNdata = s.engNdata := rfl
@[simp] theorem State.setVerifyOk_engNparity (b : Bool) : (s.setVerifyOk b).engNparity = s.engNparity := rfl
@[simp] theorem State.setVerifyOk_argN (b : Bool) : (s.setVerifyOk b).argN = s.argN := rfl
@[simp] theorem State.setVerifyOk_gfA (b : Bool) : (s.setVerifyOk b).gfA = s.gfA := rfl
@[simp] theorem State.setVerifyOk_gfB (b : Bool) : (s.setVerifyOk b).gfB = s.gfB := rfl
@[simp] theorem State.setVerifyOk_gfN (b : Bool) : (s.setVerifyOk b).gfN = s.gfN := rfl
@[simp] theorem State.setVerifyOk_gfR (b : Bool) : (s.setVerifyOk b).gfR = s.gfR := rfl
@[simp] theorem State.setVerifyOk_matSel (b : Bool) : (s.setVerifyOk b).matSel = s.matSel := rfl
@[simp] theorem State.setVerifyOk_shapes (b : Bool) : (s.setVerifyOk b).shapes = s.shapes := rfl
@[simp] theorem State.setVerifyOk_matRow (b : Bool) : (s.setVerifyOk b).matRow = s.matRow := rfl
@[simp] theorem State.setVerifyOk_matCol (b : Bool) : (s.setVerifyOk b).matCol = s.matCol := rfl
@[simp] theorem State.setVerifyOk_el (b : Bool) : (s.setVerifyOk b).el = s.el := rfl
@[simp] theorem State.setVerifyOk_idxCount (b : Bool) : (s.setVerifyOk b).idxCount = s.idxCount := rfl
@[simp] theorem State.setVerifyOk_idxPtr (b : Bool) : (s.setVerifyOk b).idxPtr = s.idxPtr := rfl
@[simp] theorem State.setVerifyOk_idx (b : Bool) : (s.setVerifyOk b).idx = s.idx := rfl
@[simp] theorem State.setVerifyOk_slotCount (b : Bool) : (s.setVerifyOk b).slotCount = s.slotCount := rfl
@[simp] theorem State.setVerifyOk_slotSel (b : Bool) : (s.setVerifyOk b).slotSel = s.slotSel := rfl
@[simp] theorem State.setVerifyOk_slotLen (b : Bool) : (s.setVerifyOk b).slotLen = s.slotLen := rfl
@[simp] theorem State.setVerifyOk_slotPresent (b : Bool) : (s.setVerifyOk b).slotPresent = s.slotPresent := rfl
@[simp] theorem State.setVerifyOk_shSlot (b : Bool) : (s.setVerifyOk b).shSlot = s.shSlot := rfl
@[simp] theorem State.setVerifyOk_shOff (b : Bool) : (s.setVerifyOk b).shOff = s.shOff := rfl
@[simp] theorem State.setVerifyOk_sh (b : Bool) : (s.setVerifyOk b).sh = s.sh := rfl
@[simp] theorem State.setVerifyOk_tblSel (b : Bool) : (s.setVerifyOk b).tblSel = s.tblSel := rfl
@[simp] theorem State.setVerifyOk_tblIdx (b : Bool) : (s.setVerifyOk b).tblIdx = s.tblIdx := rfl
@[simp] theorem State.setVerifyOk_draws (b : Bool) : (s.setVerifyOk b).draws = s.draws := rfl
@[simp] theorem State.setVerifyOk_agenda (b : Bool) : (s.setVerifyOk b).agenda = s.agenda := rfl
@[simp] theorem State.setVerifyOk_busData (b : Bool) : (s.setVerifyOk b).busData = s.busData := rfl

/-! ### writeMat -/

@[simp] theorem State.writeMat_params (m : MatReg) (R : Mat) : (s.writeMat m R).params = s.params := rfl
@[simp] theorem State.writeMat_status (m : MatReg) (R : Mat) : (s.writeMat m R).status = s.status := rfl
@[simp] theorem State.writeMat_pend (m : MatReg) (R : Mat) : (s.writeMat m R).pend = s.pend := rfl
@[simp] theorem State.writeMat_intEn (m : MatReg) (R : Mat) : (s.writeMat m R).intEn = s.intEn := rfl
@[simp] theorem State.writeMat_cfgNdata (m : MatReg) (R : Mat) : (s.writeMat m R).cfgNdata = s.cfgNdata := rfl
@[simp] theorem State.writeMat_cfgNparity (m : MatReg) (R : Mat) : (s.writeMat m R).cfgNparity = s.cfgNparity := rfl
@[simp] theorem State.writeMat_engNdata (m : MatReg) (R : Mat) : (s.writeMat m R).engNdata = s.engNdata := rfl
@[simp] theorem State.writeMat_engNparity (m : MatReg) (R : Mat) : (s.writeMat m R).engNparity = s.engNparity := rfl
@[simp] theorem State.writeMat_argN (m : MatReg) (R : Mat) : (s.writeMat m R).argN = s.argN := rfl
@[simp] theorem State.writeMat_gfA (m : MatReg) (R : Mat) : (s.writeMat m R).gfA = s.gfA := rfl
@[simp] theorem State.writeMat_gfB (m : MatReg) (R : Mat) : (s.writeMat m R).gfB = s.gfB := rfl
@[simp] theorem State.writeMat_gfN (m : MatReg) (R : Mat) : (s.writeMat m R).gfN = s.gfN := rfl
@[simp] theorem State.writeMat_gfR (m : MatReg) (R : Mat) : (s.writeMat m R).gfR = s.gfR := rfl
@[simp] theorem State.writeMat_matSel (m : MatReg) (R : Mat) : (s.writeMat m R).matSel = s.matSel := rfl
@[simp] theorem State.writeMat_shapes (m : MatReg) (R : Mat) : (s.writeMat m R).shapes = s.shapes.set m ⟨BitVec.ofNat 16 R.rows, BitVec.ofNat 16 R.cols⟩ := rfl
@[simp] theorem State.writeMat_matRow (m : MatReg) (R : Mat) : (s.writeMat m R).matRow = s.matRow := rfl
@[simp] theorem State.writeMat_matCol (m : MatReg) (R : Mat) : (s.writeMat m R).matCol = s.matCol := rfl
@[simp] theorem State.writeMat_el (m : MatReg) (R : Mat) : (s.writeMat m R).el = Store.setAll s.el (matCells m R) := rfl
@[simp] theorem State.writeMat_idxCount (m : MatReg) (R : Mat) : (s.writeMat m R).idxCount = s.idxCount := rfl
@[simp] theorem State.writeMat_idxPtr (m : MatReg) (R : Mat) : (s.writeMat m R).idxPtr = s.idxPtr := rfl
@[simp] theorem State.writeMat_idx (m : MatReg) (R : Mat) : (s.writeMat m R).idx = s.idx := rfl
@[simp] theorem State.writeMat_slotCount (m : MatReg) (R : Mat) : (s.writeMat m R).slotCount = s.slotCount := rfl
@[simp] theorem State.writeMat_slotSel (m : MatReg) (R : Mat) : (s.writeMat m R).slotSel = s.slotSel := rfl
@[simp] theorem State.writeMat_slotLen (m : MatReg) (R : Mat) : (s.writeMat m R).slotLen = s.slotLen := rfl
@[simp] theorem State.writeMat_slotPresent (m : MatReg) (R : Mat) : (s.writeMat m R).slotPresent = s.slotPresent := rfl
@[simp] theorem State.writeMat_shSlot (m : MatReg) (R : Mat) : (s.writeMat m R).shSlot = s.shSlot := rfl
@[simp] theorem State.writeMat_shOff (m : MatReg) (R : Mat) : (s.writeMat m R).shOff = s.shOff := rfl
@[simp] theorem State.writeMat_sh (m : MatReg) (R : Mat) : (s.writeMat m R).sh = s.sh := rfl
@[simp] theorem State.writeMat_tblSel (m : MatReg) (R : Mat) : (s.writeMat m R).tblSel = s.tblSel := rfl
@[simp] theorem State.writeMat_tblIdx (m : MatReg) (R : Mat) : (s.writeMat m R).tblIdx = s.tblIdx := rfl
@[simp] theorem State.writeMat_draws (m : MatReg) (R : Mat) : (s.writeMat m R).draws = s.draws := rfl
@[simp] theorem State.writeMat_agenda (m : MatReg) (R : Mat) : (s.writeMat m R).agenda = s.agenda := rfl
@[simp] theorem State.writeMat_busData (m : MatReg) (R : Mat) : (s.writeMat m R).busData = s.busData := rfl

/-! ### writeShards -/

@[simp] theorem State.writeShards_params (l : List Host.Cell) : (s.writeShards l).params = s.params := rfl
@[simp] theorem State.writeShards_status (l : List Host.Cell) : (s.writeShards l).status = s.status := rfl
@[simp] theorem State.writeShards_pend (l : List Host.Cell) : (s.writeShards l).pend = s.pend := rfl
@[simp] theorem State.writeShards_intEn (l : List Host.Cell) : (s.writeShards l).intEn = s.intEn := rfl
@[simp] theorem State.writeShards_cfgNdata (l : List Host.Cell) : (s.writeShards l).cfgNdata = s.cfgNdata := rfl
@[simp] theorem State.writeShards_cfgNparity (l : List Host.Cell) : (s.writeShards l).cfgNparity = s.cfgNparity := rfl
@[simp] theorem State.writeShards_engNdata (l : List Host.Cell) : (s.writeShards l).engNdata = s.engNdata := rfl
@[simp] theorem State.writeShards_engNparity (l : List Host.Cell) : (s.writeShards l).engNparity = s.engNparity := rfl
@[simp] theorem State.writeShards_argN (l : List Host.Cell) : (s.writeShards l).argN = s.argN := rfl
@[simp] theorem State.writeShards_gfA (l : List Host.Cell) : (s.writeShards l).gfA = s.gfA := rfl
@[simp] theorem State.writeShards_gfB (l : List Host.Cell) : (s.writeShards l).gfB = s.gfB := rfl
@[simp] theorem State.writeShards_gfN (l : List Host.Cell) : (s.writeShards l).gfN = s.gfN := rfl
@[simp] theorem State.writeShards_gfR (l : List Host.Cell) : (s.writeShards l).gfR = s.gfR := rfl
@[simp] theorem State.writeShards_matSel (l : List Host.Cell) : (s.writeShards l).matSel = s.matSel := rfl
@[simp] theorem State.writeShards_shapes (l : List Host.Cell) : (s.writeShards l).shapes = s.shapes := rfl
@[simp] theorem State.writeShards_matRow (l : List Host.Cell) : (s.writeShards l).matRow = s.matRow := rfl
@[simp] theorem State.writeShards_matCol (l : List Host.Cell) : (s.writeShards l).matCol = s.matCol := rfl
@[simp] theorem State.writeShards_el (l : List Host.Cell) : (s.writeShards l).el = s.el := rfl
@[simp] theorem State.writeShards_idxCount (l : List Host.Cell) : (s.writeShards l).idxCount = s.idxCount := rfl
@[simp] theorem State.writeShards_idxPtr (l : List Host.Cell) : (s.writeShards l).idxPtr = s.idxPtr := rfl
@[simp] theorem State.writeShards_idx (l : List Host.Cell) : (s.writeShards l).idx = s.idx := rfl
@[simp] theorem State.writeShards_slotCount (l : List Host.Cell) : (s.writeShards l).slotCount = s.slotCount := rfl
@[simp] theorem State.writeShards_slotSel (l : List Host.Cell) : (s.writeShards l).slotSel = s.slotSel := rfl
@[simp] theorem State.writeShards_slotLen (l : List Host.Cell) : (s.writeShards l).slotLen = s.slotLen := rfl
@[simp] theorem State.writeShards_slotPresent (l : List Host.Cell) : (s.writeShards l).slotPresent = s.slotPresent := rfl
@[simp] theorem State.writeShards_shSlot (l : List Host.Cell) : (s.writeShards l).shSlot = s.shSlot := rfl
@[simp] theorem State.writeShards_shOff (l : List Host.Cell) : (s.writeShards l).shOff = s.shOff := rfl
@[simp] theorem State.writeShards_sh (l : List Host.Cell) : (s.writeShards l).sh = Store.setAll s.sh l := rfl
@[simp] theorem State.writeShards_tblSel (l : List Host.Cell) : (s.writeShards l).tblSel = s.tblSel := rfl
@[simp] theorem State.writeShards_tblIdx (l : List Host.Cell) : (s.writeShards l).tblIdx = s.tblIdx := rfl
@[simp] theorem State.writeShards_draws (l : List Host.Cell) : (s.writeShards l).draws = s.draws := rfl
@[simp] theorem State.writeShards_agenda (l : List Host.Cell) : (s.writeShards l).agenda = s.agenda := rfl
@[simp] theorem State.writeShards_busData (l : List Host.Cell) : (s.writeShards l).busData = s.busData := rfl

/-! ### markPresent -/

@[simp] theorem State.markPresent_params (l : List Nat) (n : Word) : (s.markPresent l n).params = s.params := rfl
@[simp] theorem State.markPresent_status (l : List Nat) (n : Word) : (s.markPresent l n).status = s.status := rfl
@[simp] theorem State.markPresent_pend (l : List Nat) (n : Word) : (s.markPresent l n).pend = s.pend := rfl
@[simp] theorem State.markPresent_intEn (l : List Nat) (n : Word) : (s.markPresent l n).intEn = s.intEn := rfl
@[simp] theorem State.markPresent_cfgNdata (l : List Nat) (n : Word) : (s.markPresent l n).cfgNdata = s.cfgNdata := rfl
@[simp] theorem State.markPresent_cfgNparity (l : List Nat) (n : Word) : (s.markPresent l n).cfgNparity = s.cfgNparity := rfl
@[simp] theorem State.markPresent_engNdata (l : List Nat) (n : Word) : (s.markPresent l n).engNdata = s.engNdata := rfl
@[simp] theorem State.markPresent_engNparity (l : List Nat) (n : Word) : (s.markPresent l n).engNparity = s.engNparity := rfl
@[simp] theorem State.markPresent_argN (l : List Nat) (n : Word) : (s.markPresent l n).argN = s.argN := rfl
@[simp] theorem State.markPresent_gfA (l : List Nat) (n : Word) : (s.markPresent l n).gfA = s.gfA := rfl
@[simp] theorem State.markPresent_gfB (l : List Nat) (n : Word) : (s.markPresent l n).gfB = s.gfB := rfl
@[simp] theorem State.markPresent_gfN (l : List Nat) (n : Word) : (s.markPresent l n).gfN = s.gfN := rfl
@[simp] theorem State.markPresent_gfR (l : List Nat) (n : Word) : (s.markPresent l n).gfR = s.gfR := rfl
@[simp] theorem State.markPresent_matSel (l : List Nat) (n : Word) : (s.markPresent l n).matSel = s.matSel := rfl
@[simp] theorem State.markPresent_shapes (l : List Nat) (n : Word) : (s.markPresent l n).shapes = s.shapes := rfl
@[simp] theorem State.markPresent_matRow (l : List Nat) (n : Word) : (s.markPresent l n).matRow = s.matRow := rfl
@[simp] theorem State.markPresent_matCol (l : List Nat) (n : Word) : (s.markPresent l n).matCol = s.matCol := rfl
@[simp] theorem State.markPresent_el (l : List Nat) (n : Word) : (s.markPresent l n).el = s.el := rfl
@[simp] theorem State.markPresent_idxCount (l : List Nat) (n : Word) : (s.markPresent l n).idxCount = s.idxCount := rfl
@[simp] theorem State.markPresent_idxPtr (l : List Nat) (n : Word) : (s.markPresent l n).idxPtr = s.idxPtr := rfl
@[simp] theorem State.markPresent_idx (l : List Nat) (n : Word) : (s.markPresent l n).idx = s.idx := rfl
@[simp] theorem State.markPresent_slotCount (l : List Nat) (n : Word) : (s.markPresent l n).slotCount = s.slotCount := rfl
@[simp] theorem State.markPresent_slotSel (l : List Nat) (n : Word) : (s.markPresent l n).slotSel = s.slotSel := rfl
@[simp] theorem State.markPresent_slotLen (l : List Nat) (n : Word) : (s.markPresent l n).slotLen = Store.setAll s.slotLen (l.map fun k => (k, n)) := rfl
@[simp] theorem State.markPresent_slotPresent (l : List Nat) (n : Word) : (s.markPresent l n).slotPresent = Store.setAll s.slotPresent (l.map fun k => (k, true)) := rfl
@[simp] theorem State.markPresent_shSlot (l : List Nat) (n : Word) : (s.markPresent l n).shSlot = s.shSlot := rfl
@[simp] theorem State.markPresent_shOff (l : List Nat) (n : Word) : (s.markPresent l n).shOff = s.shOff := rfl
@[simp] theorem State.markPresent_sh (l : List Nat) (n : Word) : (s.markPresent l n).sh = s.sh := rfl
@[simp] theorem State.markPresent_tblSel (l : List Nat) (n : Word) : (s.markPresent l n).tblSel = s.tblSel := rfl
@[simp] theorem State.markPresent_tblIdx (l : List Nat) (n : Word) : (s.markPresent l n).tblIdx = s.tblIdx := rfl
@[simp] theorem State.markPresent_draws (l : List Nat) (n : Word) : (s.markPresent l n).draws = s.draws := rfl
@[simp] theorem State.markPresent_agenda (l : List Nat) (n : Word) : (s.markPresent l n).agenda = s.agenda := rfl
@[simp] theorem State.markPresent_busData (l : List Nat) (n : Word) : (s.markPresent l n).busData = s.busData := rfl

/-! ### setEngine -/

@[simp] theorem State.setEngine_params (w : Width) (a b : Half) : (s.setEngine w a b).params = s.params := rfl
@[simp] theorem State.setEngine_status (w : Width) (a b : Half) : (s.setEngine w a b).status = { s.status with engW16 := decide (w = .w16), configured := true } := rfl
@[simp] theorem State.setEngine_pend (w : Width) (a b : Half) : (s.setEngine w a b).pend = s.pend := rfl
@[simp] theorem State.setEngine_intEn (w : Width) (a b : Half) : (s.setEngine w a b).intEn = s.intEn := rfl
@[simp] theorem State.setEngine_cfgNdata (w : Width) (a b : Half) : (s.setEngine w a b).cfgNdata = s.cfgNdata := rfl
@[simp] theorem State.setEngine_cfgNparity (w : Width) (a b : Half) : (s.setEngine w a b).cfgNparity = s.cfgNparity := rfl
@[simp] theorem State.setEngine_engNdata (w : Width) (a b : Half) : (s.setEngine w a b).engNdata = a := rfl
@[simp] theorem State.setEngine_engNparity (w : Width) (a b : Half) : (s.setEngine w a b).engNparity = b := rfl
@[simp] theorem State.setEngine_argN (w : Width) (a b : Half) : (s.setEngine w a b).argN = s.argN := rfl
@[simp] theorem State.setEngine_gfA (w : Width) (a b : Half) : (s.setEngine w a b).gfA = s.gfA := rfl
@[simp] theorem State.setEngine_gfB (w : Width) (a b : Half) : (s.setEngine w a b).gfB = s.gfB := rfl
@[simp] theorem State.setEngine_gfN (w : Width) (a b : Half) : (s.setEngine w a b).gfN = s.gfN := rfl
@[simp] theorem State.setEngine_gfR (w : Width) (a b : Half) : (s.setEngine w a b).gfR = s.gfR := rfl
@[simp] theorem State.setEngine_matSel (w : Width) (a b : Half) : (s.setEngine w a b).matSel = s.matSel := rfl
@[simp] theorem State.setEngine_shapes (w : Width) (a b : Half) : (s.setEngine w a b).shapes = s.shapes := rfl
@[simp] theorem State.setEngine_matRow (w : Width) (a b : Half) : (s.setEngine w a b).matRow = s.matRow := rfl
@[simp] theorem State.setEngine_matCol (w : Width) (a b : Half) : (s.setEngine w a b).matCol = s.matCol := rfl
@[simp] theorem State.setEngine_el (w : Width) (a b : Half) : (s.setEngine w a b).el = s.el := rfl
@[simp] theorem State.setEngine_idxCount (w : Width) (a b : Half) : (s.setEngine w a b).idxCount = s.idxCount := rfl
@[simp] theorem State.setEngine_idxPtr (w : Width) (a b : Half) : (s.setEngine w a b).idxPtr = s.idxPtr := rfl
@[simp] theorem State.setEngine_idx (w : Width) (a b : Half) : (s.setEngine w a b).idx = s.idx := rfl
@[simp] theorem State.setEngine_slotCount (w : Width) (a b : Half) : (s.setEngine w a b).slotCount = s.slotCount := rfl
@[simp] theorem State.setEngine_slotSel (w : Width) (a b : Half) : (s.setEngine w a b).slotSel = s.slotSel := rfl
@[simp] theorem State.setEngine_slotLen (w : Width) (a b : Half) : (s.setEngine w a b).slotLen = s.slotLen := rfl
@[simp] theorem State.setEngine_slotPresent (w : Width) (a b : Half) : (s.setEngine w a b).slotPresent = s.slotPresent := rfl
@[simp] theorem State.setEngine_shSlot (w : Width) (a b : Half) : (s.setEngine w a b).shSlot = s.shSlot := rfl
@[simp] theorem State.setEngine_shOff (w : Width) (a b : Half) : (s.setEngine w a b).shOff = s.shOff := rfl
@[simp] theorem State.setEngine_sh (w : Width) (a b : Half) : (s.setEngine w a b).sh = s.sh := rfl
@[simp] theorem State.setEngine_tblSel (w : Width) (a b : Half) : (s.setEngine w a b).tblSel = s.tblSel := rfl
@[simp] theorem State.setEngine_tblIdx (w : Width) (a b : Half) : (s.setEngine w a b).tblIdx = s.tblIdx := rfl
@[simp] theorem State.setEngine_draws (w : Width) (a b : Half) : (s.setEngine w a b).draws = s.draws := rfl
@[simp] theorem State.setEngine_agenda (w : Width) (a b : Half) : (s.setEngine w a b).agenda = s.agenda := rfl
@[simp] theorem State.setEngine_busData (w : Width) (a b : Half) : (s.setEngine w a b).busData = s.busData := rfl

/-! ### resetStep -/

@[simp] theorem State.resetStep_params : (s.resetStep).params = s.params := rfl
@[simp] theorem State.resetStep_status : (s.resetStep).status = (State.resetOf s.params).status := rfl
@[simp] theorem State.resetStep_pend : (s.resetStep).pend = (State.resetOf s.params).pend := rfl
@[simp] theorem State.resetStep_intEn : (s.resetStep).intEn = (State.resetOf s.params).intEn := rfl
@[simp] theorem State.resetStep_cfgNdata : (s.resetStep).cfgNdata = (State.resetOf s.params).cfgNdata := rfl
@[simp] theorem State.resetStep_cfgNparity : (s.resetStep).cfgNparity = (State.resetOf s.params).cfgNparity := rfl
@[simp] theorem State.resetStep_engNdata : (s.resetStep).engNdata = (State.resetOf s.params).engNdata := rfl
@[simp] theorem State.resetStep_engNparity : (s.resetStep).engNparity = (State.resetOf s.params).engNparity := rfl
@[simp] theorem State.resetStep_argN : (s.resetStep).argN = (State.resetOf s.params).argN := rfl
@[simp] theorem State.resetStep_gfA : (s.resetStep).gfA = (State.resetOf s.params).gfA := rfl
@[simp] theorem State.resetStep_gfB : (s.resetStep).gfB = (State.resetOf s.params).gfB := rfl
@[simp] theorem State.resetStep_gfN : (s.resetStep).gfN = (State.resetOf s.params).gfN := rfl
@[simp] theorem State.resetStep_gfR : (s.resetStep).gfR = (State.resetOf s.params).gfR := rfl
@[simp] theorem State.resetStep_matSel : (s.resetStep).matSel = (State.resetOf s.params).matSel := rfl
@[simp] theorem State.resetStep_shapes : (s.resetStep).shapes = (State.resetOf s.params).shapes := rfl
@[simp] theorem State.resetStep_matRow : (s.resetStep).matRow = (State.resetOf s.params).matRow := rfl
@[simp] theorem State.resetStep_matCol : (s.resetStep).matCol = (State.resetOf s.params).matCol := rfl
@[simp] theorem State.resetStep_el : (s.resetStep).el = (State.resetOf s.params).el := rfl
@[simp] theorem State.resetStep_idxCount : (s.resetStep).idxCount = (State.resetOf s.params).idxCount := rfl
@[simp] theorem State.resetStep_idxPtr : (s.resetStep).idxPtr = (State.resetOf s.params).idxPtr := rfl
@[simp] theorem State.resetStep_idx : (s.resetStep).idx = (State.resetOf s.params).idx := rfl
@[simp] theorem State.resetStep_slotCount : (s.resetStep).slotCount = (State.resetOf s.params).slotCount := rfl
@[simp] theorem State.resetStep_slotSel : (s.resetStep).slotSel = (State.resetOf s.params).slotSel := rfl
@[simp] theorem State.resetStep_slotLen : (s.resetStep).slotLen = (State.resetOf s.params).slotLen := rfl
@[simp] theorem State.resetStep_slotPresent : (s.resetStep).slotPresent = (State.resetOf s.params).slotPresent := rfl
@[simp] theorem State.resetStep_shSlot : (s.resetStep).shSlot = (State.resetOf s.params).shSlot := rfl
@[simp] theorem State.resetStep_shOff : (s.resetStep).shOff = (State.resetOf s.params).shOff := rfl
@[simp] theorem State.resetStep_sh : (s.resetStep).sh = (State.resetOf s.params).sh := rfl
@[simp] theorem State.resetStep_tblSel : (s.resetStep).tblSel = (State.resetOf s.params).tblSel := rfl
@[simp] theorem State.resetStep_tblIdx : (s.resetStep).tblIdx = (State.resetOf s.params).tblIdx := rfl
@[simp] theorem State.resetStep_draws : (s.resetStep).draws = s.draws + 1 := rfl
@[simp] theorem State.resetStep_agenda : (s.resetStep).agenda = s.agenda := rfl
@[simp] theorem State.resetStep_busData : (s.resetStep).busData = s.busData := rfl

end Sys2Proof.Machine
end

