-- ==== Sys2Proof/Laws/Completion.lean ====
section
/-! SUPPORT. What each shared operation can answer: completion, the meanings, bus accesses, turns and the step. Later
proofs cite these inversion lemmas and unfold none of the operations. -/

namespace Sys2Proof.Machine

variable {s t : State}

/-! ### Completion -/

@[simp] theorem conclude_ok (s u : State) : s.conclude (.ok u) = u.finish none := rfl

@[simp] theorem conclude_error (s : State) (e : CmdError) : s.conclude (.error e) = s.finish (some e) := rfl

theorem complete_eq (s : State) (r : Except CmdError State) : complete s r = .next (s.conclude r) := rfl

/-- A completed command either made its writes, or raised an error and made none (40_command_lifecycle.md R154). -/
theorem complete_cases {r : Except CmdError State} (h : complete s r = .next t) :
    (∃ u, r = .ok u ∧ t = u.finish none) ∨ (∃ e, r = .error e ∧ t = s.finish (some e)) := by
  cases r with
  | ok u => exact .inl ⟨u, rfl, by cases h; rfl⟩
  | error e => exact .inr ⟨e, rfl, by cases h; rfl⟩

/-- Every meaning is a completion, from the state at issue, or for RS_VERIFY from that state with `VERIFY_OK`
cleared (40_command_lifecycle.md R152 to R154). -/
theorem exec_is_completion (i : Instr) (s : State) :
    ∃ b r, exec i s = complete b r ∧ (b = s ∨ i = .rsVerify ∧ b = s.setVerifyOk false) := by
  cases i with
  | rsVerify => exact ⟨_, _, rfl, .inr ⟨rfl, rfl⟩⟩
  | nop => exact ⟨_, _, rfl, .inl rfl⟩
  | gfAdd w => exact ⟨_, _, rfl, .inl rfl⟩
  | gfMul w => exact ⟨_, _, rfl, .inl rfl⟩
  | gfDiv w => exact ⟨_, _, rfl, .inl rfl⟩
  | gfInv w => exact ⟨_, _, rfl, .inl rfl⟩
  | gfPow w => exact ⟨_, _, rfl, .inl rfl⟩
  | matIdentity md => exact ⟨_, _, rfl, .inl rfl⟩
  | matMul w md ma mb => exact ⟨_, _, rfl, .inl rfl⟩
  | matSub md ma => exact ⟨_, _, rfl, .inl rfl⟩
  | matInv w md ma => exact ⟨_, _, rfl, .inl rfl⟩
  | matBuild w md => exact ⟨_, _, rfl, .inl rfl⟩
  | rsConstruct w => exact ⟨_, _, rfl, .inl rfl⟩
  | rsEncode => exact ⟨_, _, rfl, .inl rfl⟩
  | rsReconstruct => exact ⟨_, _, rfl, .inl rfl⟩

/-- What a field-arithmetic command hands to its completion. -/
theorem gfResult_cases {x : Except CmdError Half} {u : State} (h : gfResult s x = .ok u) :
    ∃ r, x = .ok r ∧ u = s.setGfR r := by
  cases x with
  | ok r => exact ⟨r, rfl, by cases h; rfl⟩
  | error e => cases h

/-- What a matrix command hands to its completion. -/
theorem matResult_cases {md : MatReg} {x : Except CmdError Mat} {u : State} (h : matResult s md x = .ok u) :
    ∃ R, x = .ok R ∧ u = s.writeMat md R := by
  cases x with
  | ok R => exact ⟨R, rfl, by cases h; rfl⟩
  | error e => cases h

/-- The writes that a successful command makes before it completes: one case for each kind of write. -/
inductive Effect (s : State) : Instr → State → Prop
  | nop : Effect s .nop s
  | gf (i : Instr) (r : Half) (hi : i.opcode = .gfAdd ∨ i.opcode = .gfMul ∨ i.opcode = .gfDiv ∨ i.opcode = .gfInv ∨
      i.opcode = .gfPow) : Effect s i (s.setGfR r)
  | identity (md : MatReg) (h : s.argN.toNat ≤ s.params.nMax) :
      Effect s (.matIdentity md) (s.writeMat md (identity s.argN.toNat))
  | mul (w : Width) (md ma mb : MatReg) (R : Mat) (h : matMul w (s.matVal w 0 ma) (s.matVal w 1 mb) = .ok R) :
      Effect s (.matMul w md ma mb) (s.writeMat md R)
  | sub (md ma : MatReg) (R : Mat) (h : submatrix (s.matRaw 0 ma) s.idxList = .ok R) :
      Effect s (.matSub md ma) (s.writeMat md R)
  | inv (w : Width) (md ma : MatReg) (R : Mat) (h : matInv w (s.matVal w 0 ma) = .ok R) :
      Effect s (.matInv w md ma) (s.writeMat md R)
  | build (w : Width) (md : MatReg) (E : Mat) (h : s.cfgBuild w = .ok E) :
      Effect s (.matBuild w md) (s.writeMat md E)
  | construct (w : Width) (E : Mat) (h : s.cfgBuild w = .ok E) : Effect s (.rsConstruct w) (s.writeInstance w E)
  | encode (h : s.setCheck = none) : Effect s .rsEncode (s.writeShards s.encodeCells)
  | verify (h : s.setCheck = none) : Effect s .rsVerify (s.setVerifyOk s.parityMatches)
  | intact (h : s.recCheck = none) (ha : s.absentSet = []) : Effect s .rsReconstruct s
  | reconstruct (h : s.recCheck = none) (ha : s.absentSet ≠ []) (Dinv : Mat) (hd : s.decodeMat = .ok Dinv) :
      Effect s .rsReconstruct
        ((s.writeShards (s.recoverCells Dinv)).markPresent s.absentSet (BitVec.ofNat 32 s.recLen))

/-- The state that a command leaves when it raises an error: `VERIFY_OK` cleared for RS_VERIFY, and the completion's
writes (40_command_lifecycle.md R154). -/
def failBase (i : Instr) (s : State) : State := if i = .rsVerify then s.setVerifyOk false else s

/-- Everything a command can do: its effect and a successful completion, or no effect and an error. -/
theorem exec_cases {i : Instr} (h : exec i s = .next t) :
    (∃ u, Effect s i u ∧ t = u.finish none) ∨ (∃ e, t = (failBase i s).finish (some e)) := by
  cases i with
  | nop => exact .inl ⟨s, .nop, by cases h; rfl⟩
  | gfAdd w => exact .inl ⟨_, .gf _ _ (by simp [Instr.opcode]), (Host.Outcome.next.inj h).symm⟩
  | gfMul w => exact .inl ⟨_, .gf _ _ (by simp [Instr.opcode]), (Host.Outcome.next.inj h).symm⟩
  | gfPow w => exact .inl ⟨_, .gf _ _ (by simp [Instr.opcode]), (Host.Outcome.next.inj h).symm⟩
  | gfDiv w =>
    rcases complete_cases h with ⟨u, hu, rfl⟩ | ⟨e, _, rfl⟩
    · obtain ⟨r, _, rfl⟩ := gfResult_cases hu
      exact .inl ⟨_, .gf _ _ (by simp [Instr.opcode]), rfl⟩
    · exact .inr ⟨e, rfl⟩
  | gfInv w =>
    rcases complete_cases h with ⟨u, hu, rfl⟩ | ⟨e, _, rfl⟩
    · obtain ⟨r, _, rfl⟩ := gfResult_cases hu
      exact .inl ⟨_, .gf _ _ (by simp [Instr.opcode]), rfl⟩
    · exact .inr ⟨e, rfl⟩
  | matIdentity md =>
    rcases complete_cases h with ⟨u, hu, rfl⟩ | ⟨e, _, rfl⟩
    · obtain ⟨R, hR, rfl⟩ := matResult_cases hu
      split at hR
      · cases hR
      · rename_i hn
        cases hR
        exact .inl ⟨_, .identity md (Nat.le_of_not_lt hn), rfl⟩
    · exact .inr ⟨e, rfl⟩
  | matMul w md ma mb =>
    rcases complete_cases h with ⟨u, hu, rfl⟩ | ⟨e, _, rfl⟩
    · obtain ⟨R, hR, rfl⟩ := matResult_cases hu
      exact .inl ⟨_, .mul w md ma mb R hR, rfl⟩
    · exact .inr ⟨e, rfl⟩
  | matSub md ma =>
    rcases complete_cases h with ⟨u, hu, rfl⟩ | ⟨e, _, rfl⟩
    · obtain ⟨R, hR, rfl⟩ := matResult_cases hu
      exact .inl ⟨_, .sub md ma R hR, rfl⟩
    · exact .inr ⟨e, rfl⟩
  | matInv w md ma =>
    rcases complete_cases h with ⟨u, hu, rfl⟩ | ⟨e, _, rfl⟩
    · obtain ⟨R, hR, rfl⟩ := matResult_cases hu
      exact .inl ⟨_, .inv w md ma R hR, rfl⟩
    · exact .inr ⟨e, rfl⟩
  | matBuild w md =>
    rcases complete_cases h with ⟨u, hu, rfl⟩ | ⟨e, _, rfl⟩
    · obtain ⟨R, hR, rfl⟩ := matResult_cases hu
      exact .inl ⟨_, .build w md R hR, rfl⟩
    · exact .inr ⟨e, rfl⟩
  | rsConstruct w =>
    rcases complete_cases h with ⟨u, hu, rfl⟩ | ⟨e, _, rfl⟩
    · split at hu
      · cases hu
      · rename_i E hE
        cases hu
        exact .inl ⟨_, .construct w E hE, rfl⟩
    · exact .inr ⟨e, rfl⟩
  | rsEncode =>
    rcases complete_cases h with ⟨u, hu, rfl⟩ | ⟨e, _, rfl⟩
    · split at hu
      · cases hu
      · rename_i hc
        cases hu
        exact .inl ⟨_, .encode hc, rfl⟩
    · exact .inr ⟨e, rfl⟩
  | rsVerify =>
    rcases complete_cases h with ⟨u, hu, rfl⟩ | ⟨e, _, rfl⟩
    · split at hu
      · cases hu
      · rename_i hc
        cases hu
        exact .inl ⟨_, .verify hc, rfl⟩
    · exact .inr ⟨e, rfl⟩
  | rsReconstruct =>
    rcases complete_cases h with ⟨u, hu, rfl⟩ | ⟨e, _, rfl⟩
    · split at hu
      · cases hu
      · rename_i hc
        split at hu
        · cases hu
          exact .inl ⟨_, .intact hc (by assumption), rfl⟩
        · split at hu
          · cases hu
          · rename_i Dinv hD
            cases hu
            exact .inl ⟨_, .reconstruct hc (by assumption) Dinv hD, rfl⟩
    · exact .inr ⟨e, rfl⟩

/-! ### Bus accesses -/

/-- A read is either rejected, or an accepted read of the register at its offset (20_memory.md R96, R97). -/
theorem busRead_cases (off : BitVec 8) (s : State) :
    busRead off s = (0, s.reject) ∨
      ∃ r a, regAt off = some r ∧ lockedOut false r s = false ∧ readReg r s = some a ∧ busRead off s = a := by
  unfold busRead
  split
  · exact .inl rfl
  · rename_i r hr
    split
    · exact .inl rfl
    · rename_i hl
      split
      · exact .inl rfl
      · rename_i a ha
        exact .inr ⟨r, a, hr, by simpa using hl, ha, rfl⟩

/-- A write is either rejected, or an accepted write of the register at its offset (20_memory.md R96, R97). -/
theorem busWrite_cases (off : BitVec 8) (v : Word) (s : State) :
    busWrite off v s = s.reject ∨
      ∃ r u, regAt off = some r ∧ lockedOut true r s = false ∧ writeReg r v s = some u ∧ busWrite off v s = u := by
  unfold busWrite
  split
  · exact .inl rfl
  · rename_i r hr
    split
    · exact .inl rfl
    · rename_i hl
      split
      · exact .inl rfl
      · rename_i u hu
        exact .inr ⟨r, u, hr, by simpa using hl, hu, rfl⟩

/-- Everything an accepted read can change: a pointer of a window and the draw counter (20_memory.md R94). -/
theorem readReg_state {r : Reg} {a : Word × State} (h : readReg r s = some a) :
    ∃ c p o x d, a.2 = { s with matCol := c, idxPtr := p, shOff := o, tblIdx := x, draws := d } := by
  cases r
  case matData => simp only [readReg, readMatData] at h; split at h <;> cases h; exact ⟨_, _, _, _, _, rfl⟩
  case idxData => simp only [readReg, readIdxData] at h; split at h <;> cases h; exact ⟨_, _, _, _, _, rfl⟩
  case slotLen => simp only [readReg, readSlotLen] at h; split at h <;> cases h; exact ⟨_, _, _, _, _, rfl⟩
  case slotPresent => simp only [readReg, readSlotPresent] at h; split at h <;> cases h; exact ⟨_, _, _, _, _, rfl⟩
  case shData => simp only [readReg, readShData] at h; split at h <;> cases h; exact ⟨_, _, _, _, _, rfl⟩
  case tblData => simp only [readReg, readTblData] at h; split at h <;> cases h; exact ⟨_, _, _, _, _, rfl⟩
  all_goals (cases h; exact ⟨_, _, _, _, _, rfl⟩)

/-! ### Turns and the step -/

/-- Everything a host turn can do. -/
theorem hostTurn_cases {op : BusOp} (h : hostTurn op s = .next t) :
    (∃ off v d, v = busRead off s ∧ t = { v.2 with busData := d }) ∨ (∃ off v, t = busWrite off v s) ∨
      (∃ d, t = { s.reject with busData := d }) := by
  cases op with
  | read addr size =>
    simp only [hostTurn, hostRead] at h
    split at h
    · cases h
    · split at h
      · cases h; exact .inl ⟨_, _, _, rfl, rfl⟩
      · cases h; exact .inr (.inr ⟨_, rfl⟩)
  | write addr lanes =>
    simp only [hostTurn, hostWrite] at h
    split at h
    · cases h
    · split at h
      · cases h; exact .inr (.inr ⟨s.busData, rfl⟩)
      · cases h; exact .inr (.inl ⟨_, _, rfl⟩)

/-- Everything an engine turn can do. -/
theorem engineTurn_cases (h : engineTurn s = .next t) :
    (s.status.busy = false ∧ t = s) ∨
      ∃ v, s.status.busy = true ∧ s.pend = some v ∧
        ((∃ e, decode v = .error e ∧ t = s.finish (some .illegalCommand)) ∨ (∃ i, decode v = .ok i ∧ exec i s = .next t)) := by
  unfold engineTurn at h
  split at h
  · rename_i hb
    split at h
    · cases h
    · rename_i v hv
      refine .inr ⟨v, hb, hv, ?_⟩
      unfold executeWord at h
      split at h
      · rename_i e he
        exact .inl ⟨e, he, by cases h; rfl⟩
      · rename_i i hi
        exact .inr ⟨i, hi, h⟩
  · rename_i hb
    exact .inl ⟨by simpa using hb, by cases h; rfl⟩

/-- Everything a step can do: it is the turn of exactly one agent, with the agenda moved on. -/
theorem step_cases (h : step s = .next t) :
    (s.agenda = [] ∧ engineTurn s = .next t) ∨
      ∃ rest, (s.agenda = .engine :: rest ∧ engineTurn { s with agenda := rest } = .next t) ∨
        (∃ op, s.agenda = .host op :: rest ∧ hostTurn op { s with agenda := rest } = .next t) ∨
        (s.agenda = .reset :: rest ∧ t = State.resetStep { s with agenda := rest }) := by
  unfold step at h
  split at h
  · exact .inl ⟨by assumption, h⟩
  · rename_i x rest ha
    refine .inr ⟨rest, ?_⟩
    cases x with
    | host op => exact .inr (.inl ⟨op, ha, h⟩)
    | engine => exact .inl ⟨ha, h⟩
    | reset => exact .inr (.inr ⟨ha, by cases h; rfl⟩)

end Sys2Proof.Machine
end

