-- ==== Sys2Proof/Laws/PerInstr.lean ====
section
/-! SUPPORT. Laws stated for every command, one lemma for each constructor: the word of a command has its opcode in
bits 7:0 and 0 in the reserved bits (30_encoding.md R131, R132, R137). -/

namespace Sys2Proof.Laws.EncodedFields

/-- The word of `i` names the opcode of `i`, and its reserved bits are 0. -/
def Statement (i : Instr) : Prop := opcField (encode i) = i.opcode.code ∧ rsvField (encode i) = 0

theorem packWord_fields (o : Opcode) (w : BitVec 1) (md ma mb : BitVec 3) :
    opcField (packWord o w md ma mb) = o.code ∧ rsvField (packWord o w md ma mb) = 0 := by
  unfold opcField rsvField packWord
  constructor
  · ext i hi
    simp
    grind
  · ext i hi
    simp
    grind

theorem nop : Statement .nop := packWord_fields ..
theorem gfAdd (w : Width) : Statement (.gfAdd w) := packWord_fields ..
theorem gfMul (w : Width) : Statement (.gfMul w) := packWord_fields ..
theorem gfDiv (w : Width) : Statement (.gfDiv w) := packWord_fields ..
theorem gfInv (w : Width) : Statement (.gfInv w) := packWord_fields ..
theorem gfPow (w : Width) : Statement (.gfPow w) := packWord_fields ..
theorem matIdentity (md : MatReg) : Statement (.matIdentity md) := packWord_fields ..
theorem matMul (w : Width) (md ma mb : MatReg) : Statement (.matMul w md ma mb) := packWord_fields ..
theorem matSub (md ma : MatReg) : Statement (.matSub md ma) := packWord_fields ..
theorem matInv (w : Width) (md ma : MatReg) : Statement (.matInv w md ma) := packWord_fields ..
theorem matBuild (w : Width) (md : MatReg) : Statement (.matBuild w md) := packWord_fields ..
theorem rsConstruct (w : Width) : Statement (.rsConstruct w) := packWord_fields ..
theorem rsEncode : Statement .rsEncode := packWord_fields ..
theorem rsVerify : Statement .rsVerify := packWord_fields ..
theorem rsReconstruct : Statement .rsReconstruct := packWord_fields ..

end Sys2Proof.Laws.EncodedFields
end

