-- ==== Sys2Proof/Laws/Store.lean ====
section
/-! SUPPORT. The laws of the arrays: reads after writes, and the canonical form, which every write keeps. -/

namespace Sys2Proof

theorem MatReg.num_lt (m : MatReg) : m.num < 5 := by cases m <;> decide

theorem MatReg.num_injective {m m' : MatReg} (h : m.num = m'.num) : m = m' := by
  cases m <;> cases m' <;> first | rfl | (exact absurd h (by decide))

end Sys2Proof

namespace Sys2Proof.Machine

variable {α : Type}

@[simp] theorem Store.get?_nil (k : Nat) : Store.get? ([] : Store α) k = none := rfl

@[simp] theorem Store.setAll_nil (m : Store α) : Store.setAll m [] = m := rfl

@[simp] theorem Store.setAll_cons (m : Store α) (kv : Nat × α) (l : List (Nat × α)) :
    Store.setAll m (kv :: l) = Store.setAll (Store.set m kv.1 kv.2) l := rfl

theorem Store.setAll_append (m : Store α) (l l' : List (Nat × α)) :
    Store.setAll m (l ++ l') = Store.setAll (Store.setAll m l) l' := by
  simp [Store.setAll]

theorem Store.get?_set_self (m : Store α) (k : Nat) (v : α) : Store.get? (Store.set m k v) k = some v := by
  induction m with
  | nil => simp [Store.set, Store.get?]
  | cons a rest ih =>
    obtain ⟨j, u⟩ := a
    simp only [Store.set]
    split
    · simp [Store.get?]
    · split
      · simp [Store.get?]
      · simp only [Store.get?]
        split
        · omega
        · exact ih

theorem Store.get?_set_of_ne (m : Store α) (k k' : Nat) (v : α) (h : k' ≠ k) :
    Store.get? (Store.set m k v) k' = Store.get? m k' := by
  induction m with
  | nil => simp [Store.set, Store.get?, h]
  | cons a rest ih =>
    obtain ⟨j, u⟩ := a
    simp only [Store.set]
    split
    · simp [Store.get?, h]
    · split
      · subst_vars; simp [Store.get?, h]
      · simp only [Store.get?, ih]

/-- The value at a key after one write. -/
theorem Store.get?_set (m : Store α) (k k' : Nat) (v : α) :
    Store.get? (Store.set m k v) k' = if k' = k then some v else Store.get? m k' := by
  split
  · subst_vars; exact Store.get?_set_self m _ v
  · exact Store.get?_set_of_ne m k k' v (by assumption)

/-- A list of writes leaves every key it does not name. -/
theorem Store.get?_setAll_of_notMem (l : List (Nat × α)) (m : Store α) (k : Nat) (h : ∀ kv ∈ l, kv.1 ≠ k) :
    Store.get? (Store.setAll m l) k = Store.get? m k := by
  induction l generalizing m with
  | nil => rfl
  | cons a l ih =>
    rw [Store.setAll_cons, ih _ fun kv hkv => h kv (List.mem_cons_of_mem _ hkv),
      Store.get?_set_of_ne _ _ _ _ (h a List.mem_cons_self).symm]

/-- If every write to `k` in the list writes `v`, and there is one, then `k` reads `v` afterwards. -/
theorem Store.get?_setAll_of_mem (l : List (Nat × α)) (m : Store α) (k : Nat) (v : α) (hk : (k, v) ∈ l)
    (h : ∀ kv ∈ l, kv.1 = k → kv.2 = v) : Store.get? (Store.setAll m l) k = some v := by
  induction l generalizing m with
  | nil => simp at hk
  | cons a l ih =>
    rw [Store.setAll_cons]
    by_cases hl : (k, v) ∈ l
    · exact ih _ hl fun kv hkv => h kv (List.mem_cons_of_mem _ hkv)
    · have ha : a = (k, v) := by
        rcases List.mem_cons.1 hk with h' | h'
        · exact h'.symm
        · exact absurd h' hl
      rw [Store.get?_setAll_of_notMem, ha, Store.get?_set_self]
      intro kv hkv he
      exact hl (by rw [← he, ← h kv (List.mem_cons_of_mem _ hkv) he]; exact hkv)

theorem Store.mem_set (m : Store α) (k : Nat) (v : α) (kv : Nat × α) (h : kv ∈ Store.set m k v) :
    kv = (k, v) ∨ kv ∈ m := by
  induction m with
  | nil => simpa [Store.set] using h
  | cons a rest ih =>
    obtain ⟨j, u⟩ := a
    simp only [Store.set] at h
    split at h
    · simpa using h
    · split at h
      · rcases List.mem_cons.1 h with h | h
        · exact .inl h
        · exact .inr (List.mem_cons_of_mem _ h)
      · rcases List.mem_cons.1 h with h | h
        · exact .inr (by simp [h])
        · rcases ih h with h | h
          · exact .inl h
          · exact .inr (List.mem_cons_of_mem _ h)

/-- A write keeps the canonical form. -/
theorem Store.set_wf (m : Store α) (k : Nat) (v : α) (h : Store.wf m) : Store.wf (Store.set m k v) := by
  induction m with
  | nil => simp [Store.set]
  | cons a rest ih =>
    obtain ⟨j, u⟩ := a
    obtain ⟨h1, h2⟩ := List.pairwise_cons.1 h
    simp only [Store.set]
    split
    · refine List.pairwise_cons.2 ⟨?_, h⟩
      rintro b hb
      rcases List.mem_cons.1 hb with rfl | hb
      · assumption
      · exact lt_trans (by assumption) (h1 b hb)
    · split
      · subst_vars; exact List.pairwise_cons.2 ⟨h1, h2⟩
      · refine List.pairwise_cons.2 ⟨?_, ih h2⟩
        intro b hb
        rcases Store.mem_set _ _ _ _ hb with rfl | hb
        · dsimp only; omega
        · exact h1 b hb

/-- A list of writes keeps the canonical form. -/
theorem Store.setAll_wf (l : List (Nat × α)) (m : Store α) (h : Store.wf m) : Store.wf (Store.setAll m l) := by
  induction l generalizing m with
  | nil => exact h
  | cons a l ih => exact ih _ (Store.set_wf m _ _ h)

theorem Store.mem_setAll (l : List (Nat × α)) (m : Store α) (kv : Nat × α) (h : kv ∈ Store.setAll m l) :
    kv ∈ l ∨ kv ∈ m := by
  induction l generalizing m with
  | nil => exact .inr h
  | cons a l ih =>
    rcases ih _ h with h | h
    · exact .inl (List.mem_cons_of_mem _ h)
    · rcases Store.mem_set _ _ _ _ h with h | h
      · exact .inl (by simp [h])
      · exact .inr h

/-- Two arrays in canonical form with the same content at every key are equal: equal memories are equal data. -/
theorem Store.ext_of_wf (m m' : Store α) (h : Store.wf m) (h' : Store.wf m')
    (e : ∀ k, Store.get? m k = Store.get? m' k) : m = m' := by
  have low : ∀ (j : Nat) (l : Store α), (∀ b ∈ l, j < b.1) → Store.get? l j = none := by
    intro j l hl
    induction l with
    | nil => rfl
    | cons a l ih =>
      have ha := hl a List.mem_cons_self
      simp only [Store.get?]
      rw [if_neg (by omega), ih fun b hb => hl b (List.mem_cons_of_mem _ hb)]
  induction m generalizing m' with
  | nil =>
    cases m' with
    | nil => rfl
    | cons a l => simpa [Store.get?] using e a.1
  | cons a l ih =>
    cases m' with
    | nil => simpa [Store.get?] using e a.1
    | cons b l' =>
      obtain ⟨j, u⟩ := a
      obtain ⟨j', u'⟩ := b
      obtain ⟨h1, h2⟩ := List.pairwise_cons.1 h
      obtain ⟨h1', h2'⟩ := List.pairwise_cons.1 h'
      have hj : j = j' := by
        rcases Nat.lt_trichotomy j j' with hlt | heq | hgt
        · have := e j
          simp only [Store.get?, if_true] at this
          rw [if_neg (by omega), low j l' fun b hb => lt_trans hlt (h1' b hb)] at this
          cases this
        · exact heq
        · have := e j'
          simp only [Store.get?, if_true] at this
          rw [if_neg (by omega), low j' l fun b hb => lt_trans hgt (h1 b hb)] at this
          cases this
      subst hj
      have hu : u = u' := by simpa [Store.get?] using e j
      subst hu
      rw [ih l' h2 h2']
      intro k
      by_cases hk : k = j
      · subst hk; rw [low k l h1, low k l' h1']
      · simpa [Store.get?, hk] using e k

/-! ### Shard memory -/

theorem Memory.set_wf (m : Memory) (a : Nat) (b : Byte) (h : Memory.wf m) : Memory.wf (Store.set m a b) :=
  Store.set_wf m a b h

theorem Memory.setAll_wf (l : List Host.Cell) (m : Memory) (h : Memory.wf m) : Memory.wf (Store.setAll m l) :=
  Store.setAll_wf l m h

theorem State.resetOf_memory_wf (p : Params) : Memory.wf (State.resetOf p).sh := List.Pairwise.nil

theorem State.reset_memory_wf : Memory.wf State.reset.sh := List.Pairwise.nil

/-! ### Keys -/

/-- Element keys name their location. -/
theorem elKey_injective {m m' : MatReg} {r r' c c' : Nat} (hr : r < 2 ^ 16) (hc : c < 2 ^ 16) (hr' : r' < 2 ^ 16)
    (hc' : c' < 2 ^ 16) (h : elKey m r c = elKey m' r' c') : m = m' ∧ r = r' ∧ c = c' := by
  have hm := m.num_lt
  have hm' := m'.num_lt
  unfold elKey at h
  refine ⟨MatReg.num_injective ?_, ?_, ?_⟩ <;> omega

/-- Shard addresses name their location. -/
theorem shKey_injective {k k' o o' : Nat} (ho : o < 2 ^ 32) (ho' : o' < 2 ^ 32) (h : shKey k o = shKey k' o') :
    k = k' ∧ o = o' := by
  unfold shKey at h
  constructor <;> omega

end Sys2Proof.Machine
end

