-- ==== Sys2Proof/Laws/Symbols.lean ====
section
/-! SUPPORT. The operands of the engine in the terms that claims use: the low part of a value, a symbol by its bytes, and
the parity function of 44_rs_engine.md R249. -/

namespace Sys2Proof.Machine

/-- The operand read of 41_field_arith.md R180 is the low part. -/
theorem truncTo_eq_lowPart (w : Width) (v : Half) : truncTo w v = lowPart w v := by
  cases w <;> (apply BitVec.eq_of_toNat_eq; simp [truncTo, lowPart, Width.bits] <;> omega)

/-- Two bytes, the low one first, as one half. -/
theorem two_bytes (a b : Byte) :
    a.setWidth 16 ||| ((b.setWidth 16 ||| ((0 : Half) <<< 8)) <<< 8) = BitVec.ofNat 16 (a.toNat + 256 * b.toNat) := by
  have ha := a.isLt
  have hb := b.isLt
  rw [show (0 : Half) <<< 8 = 0 from rfl, show b.setWidth 16 ||| (0 : Half) = b.setWidth 16 from BitVec.or_zero]
  apply BitVec.eq_of_toNat_eq
  simp only [BitVec.toNat_or, BitVec.toNat_shiftLeft, BitVec.toNat_setWidth, BitVec.toNat_ofNat, Nat.shiftLeft_eq]
  rw [Nat.mod_eq_of_lt (by omega : a.toNat < 2 ^ 16), Nat.mod_eq_of_lt (by omega : b.toNat < 2 ^ 16),
    Nat.mod_eq_of_lt (by omega : b.toNat * 2 ^ 8 < 2 ^ 16), Nat.mod_eq_of_lt (by omega : a.toNat + 256 * b.toNat < 2 ^ 16),
    Nat.or_comm, Nat.mul_comm, ← Nat.two_pow_add_eq_or_of_lt ha]
  omega

/-- The symbol that the engine reads is the one of 00_scope.md R18. -/
theorem State.symAt_eq_symbol (s : State) (w : Width) (use : List Nat) (k t : Nat) :
    s.symAt w use k t = s.symbol w use k t := by
  cases w
  · apply BitVec.eq_of_toNat_eq
    simp [State.symAt, State.symbol, symBytes, Width.bits, State.memRead]
  · exact two_bytes _ _

/-- `parity(p, t)` as the field sum of products of 44_rs_engine.md R249. -/
theorem State.parity_eq (s : State) (p t : Nat) :
    s.parity p t = xorSum s.nData fun c =>
      gfMul s.engWidth (lowPart s.engWidth (s.elAt [0] .enc (s.nData + p) c)) (s.symbol s.engWidth [p] c t) := by
  simp only [State.parity, dot, State.encEl, State.dataSym, truncTo_eq_lowPart, State.symAt_eq_symbol]

end Sys2Proof.Machine
end

