-- ==== Sys2Proof/Laws/Values.lean ====
section
/-! SUPPORT. The laws of the value functions: tabulated rows and matrices, sums, and the lists of writes that a matrix
or a shard turns into. -/

namespace Sys2Proof.Machine

/-! ### Rows and matrices -/

theorem cell_tabulate (n m : Nat) (f : Nat → Nat → Half) (r c : Nat) (hr : r < n) (hc : c < m) :
    cell (tabulate n m f) r c = f r c := by
  simp [cell, tabulate, List.getD_eq_getElem?_getD, hr, hc]

theorem Mat.at_ofFn (n m : Nat) (f : Nat → Nat → Half) (r c : Nat) (hr : r < n) (hc : c < m) :
    (Mat.ofFn n m f).at r c = f r c := cell_tabulate n m f r c hr hc

@[simp] theorem Mat.rows_ofFn (n m : Nat) (f : Nat → Nat → Half) : (Mat.ofFn n m f).rows = n := rfl

@[simp] theorem Mat.cols_ofFn (n m : Nat) (f : Nat → Nat → Half) : (Mat.ofFn n m f).cols = m := rfl

theorem tabulate_congr {n m : Nat} {f g : Nat → Nat → Half} (h : ∀ r < n, ∀ c < m, f r c = g r c) :
    tabulate n m f = tabulate n m g :=
  List.map_congr_left fun r hr => List.map_congr_left fun c hc =>
    h r (List.mem_range.1 hr) c (List.mem_range.1 hc)

theorem Mat.ofFn_congr {n m : Nat} {f g : Nat → Nat → Half} (h : ∀ r < n, ∀ c < m, f r c = g r c) :
    Mat.ofFn n m f = Mat.ofFn n m g := by
  simp only [Mat.ofFn, tabulate_congr h]

/-! ### Sums -/

@[simp] theorem xorSum_zero (f : Nat → Half) : xorSum 0 f = 0 := rfl

theorem xorSum_succ (n : Nat) (f : Nat → Half) : xorSum (n + 1) f = xorSum n f ^^^ f n := rfl

theorem xorSum_congr {n : Nat} {f g : Nat → Half} (h : ∀ k < n, f k = g k) : xorSum n f = xorSum n g := by
  induction n with
  | zero => rfl
  | succ n ih =>
    rw [xorSum_succ, xorSum_succ, ih fun k hk => h k (Nat.lt_succ_of_lt hk), h n (Nat.lt_succ_self n)]

theorem dot_congr {w : Width} {n : Nat} {a b x y : Nat → Half} (ha : ∀ k < n, a k = b k) (hx : ∀ k < n, x k = y k) :
    dot w n a x = dot w n b y :=
  xorSum_congr fun k hk => by rw [ha k hk, hx k hk]

/-! ### What the matrix functions answer -/

theorem matMul_shape {w : Width} {A B C : Mat} (h : matMul w A B = .ok C) :
    A.cols = B.rows ∧ C.rows = A.rows ∧ C.cols = B.cols ∧
      ∀ i < A.rows, ∀ j < B.cols, C.at i j = dot w A.cols (fun k => A.at i k) (fun k => B.at k j) := by
  unfold matMul at h
  split at h
  · cases h
  · rename_i hd
    cases h
    exact ⟨not_not.1 hd, rfl, rfl, fun i hi j hj => Mat.at_ofFn _ _ _ _ _ hi hj⟩

theorem submatrix_shape {A C : Mat} {ix : List Nat} (h : submatrix A ix = .ok C) :
    (∀ i ∈ ix, i < A.rows) ∧ C.rows = ix.length ∧ C.cols = A.cols ∧
      ∀ j < ix.length, ∀ c < A.cols, C.at j c = A.at (ix.getD j 0) c := by
  unfold submatrix at h
  split at h
  · cases h
  · rename_i hd
    cases h
    refine ⟨fun i hi => ?_, rfl, rfl, fun j hj c hc => Mat.at_ofFn _ _ _ _ _ hj hc⟩
    by_contra hc
    exact hd (List.any_eq_true.2 ⟨i, hi, by simpa using hc⟩)

theorem matInv_shape {w : Width} {A R : Mat} (h : matInv w A = .ok R) :
    A.rows = A.cols ∧ R.rows = A.rows ∧ R.cols = A.rows := by
  unfold matInv at h
  split at h
  · cases h
  · rename_i hd
    split at h
    · cases h
    · cases h
      exact ⟨not_not.1 hd, rfl, rfl⟩

theorem build_shape {w : Width} {n p : Nat} {E : Mat} (h : build w n p = .ok E) : E.rows = n + p ∧ E.cols = n := by
  unfold build at h
  split at h
  · cases h
  · rename_i T hT
    split at h
    · cases h
    · rename_i R hR
      obtain ⟨_, h1, h2, _⟩ := matMul_shape h
      obtain ⟨_, h3, _, _⟩ := submatrix_shape hT
      obtain ⟨_, _, h4⟩ := matInv_shape hR
      exact ⟨h1, by rw [h2, h4, h3, List.length_range]⟩

/-! ### The writes of a matrix -/

theorem mem_matCells {m : MatReg} {R : Mat} {kv : Nat × Half} :
    kv ∈ matCells m R ↔ ∃ r < R.rows, ∃ c < R.cols, kv = (elKey m r c, R.at r c) := by
  simp only [matCells, List.mem_flatMap, List.mem_map, List.mem_range]
  constructor
  · rintro ⟨r, hr, c, hc, rfl⟩; exact ⟨r, hr, c, hc, rfl⟩
  · rintro ⟨r, hr, c, hc, rfl⟩; exact ⟨r, hr, c, hc, rfl⟩

/-- Inside the shape of a matrix result, the element store holds the result (10_state.md R47). -/
theorem get?_matCells_inside (el : Store Half) (m : MatReg) (R : Mat) (hrows : R.rows ≤ 2 ^ 16)
    (hcols : R.cols ≤ 2 ^ 16) {r c : Nat} (hr : r < R.rows) (hc : c < R.cols) :
    Store.get? (Store.setAll el (matCells m R)) (elKey m r c) = some (R.at r c) := by
  refine Store.get?_setAll_of_mem _ _ _ _ (mem_matCells.2 ⟨r, hr, c, hc, rfl⟩) fun kv hkv he => ?_
  obtain ⟨r', hr', c', hc', rfl⟩ := mem_matCells.1 hkv
  obtain ⟨_, rfl, rfl⟩ := elKey_injective (by omega) (by omega) (by omega) (by omega) he
  rfl

/-- Outside the shape of a matrix result, and in the other matrices, the element store is unchanged
(10_state.md R47). -/
theorem get?_matCells_outside (el : Store Half) (m m' : MatReg) (R : Mat) (hrows : R.rows ≤ 2 ^ 16)
    (hcols : R.cols ≤ 2 ^ 16) {r c : Nat} (hr : r < 2 ^ 16) (hc : c < 2 ^ 16)
    (h : m' ≠ m ∨ R.rows ≤ r ∨ R.cols ≤ c) :
    Store.get? (Store.setAll el (matCells m R)) (elKey m' r c) = Store.get? el (elKey m' r c) := by
  refine Store.get?_setAll_of_notMem _ _ _ fun kv hkv he => ?_
  obtain ⟨r', hr', c', hc', rfl⟩ := mem_matCells.1 hkv
  obtain ⟨rfl, rfl, rfl⟩ := elKey_injective (by omega) (by omega) hr hc he
  rcases h with h | h | h
  · exact h rfl
  · omega
  · omega

/-! ### The writes of a shard -/

theorem mem_memWrite {k o n : Nat} {v : Half} {kv : Host.Cell} (h : kv ∈ memWrite k o n v) :
    ∃ i < n, kv.1 = shKey k (o + i) := by
  induction n generalizing o v with
  | zero => simp [memWrite] at h
  | succ n ih =>
    rcases List.mem_cons.1 h with rfl | h
    · exact ⟨0, by omega, rfl⟩
    · obtain ⟨i, hi, he⟩ := ih h
      exact ⟨i + 1, by omega, by rw [he, Nat.add_assoc, Nat.add_comm 1 i]⟩

/-- The bytes that a shard of `n` symbols writes lie in `SH[k][0 .. n*b-1]` (20_memory.md R105). -/
theorem mem_shardCells {w : Width} {k n : Nat} {f : Nat → Half} {kv : Host.Cell} (h : kv ∈ shardCells w k n f) :
    ∃ o < n * symBytes w, kv.1 = shKey k o := by
  simp only [shardCells, List.mem_flatMap, List.mem_range] at h
  obtain ⟨t, ht, h⟩ := h
  obtain ⟨i, hi, he⟩ := mem_memWrite h
  refine ⟨symBytes w * t + i, ?_, he⟩
  calc symBytes w * t + i < symBytes w * t + symBytes w := by omega
    _ = (t + 1) * symBytes w := by ring
    _ ≤ n * symBytes w := Nat.mul_le_mul_right _ ht

/-! ### Shapes -/

@[simp] theorem Shapes.get_set_self (t : Shapes) (m : MatReg) (x : Shape) : (t.set m x).get m = x := by
  cases m <;> rfl

theorem Shapes.get_set_of_ne (t : Shapes) {m m' : MatReg} (x : Shape) (h : m' ≠ m) :
    (t.set m x).get m' = t.get m' := by
  cases m <;> cases m' <;> first | rfl | exact absurd rfl h

end Sys2Proof.Machine
end

