-- ==== Sys2Proof/Tests/Slice0.lean ====
section
/-! SUPPORT. Tests: well-formedness, decoding of words written out from 30_encoding.md, single steps with the values of
95_test_vectors.md, and for each statement with hypotheses a state and operands that meet them. -/

namespace Sys2Proof.Tests

set_option Elab.async false

open Sys2Proof Sys2Proof.Machine

/-! ### Helpers -/

/-- The next state of an outcome, if there is one. -/
def nextOf (o : Host.Outcome State Fault Refusal) : Option State :=
  match o with
  | .next t => some t
  | .fault _ => none
  | .refused _ => none

/-- A part with `N_MAX = 4`, `SHARD_CAP = 8` and `BASE = 0`, right after reset. -/
def small : State := State.resetOf ⟨4, 8, 0⟩

/-- `small` with the operands of the field commands. -/
def operands (a b : Half) (n : Word) : State := { small with gfA := a, gfB := b, gfN := n }

/-- The elements of `M[m]` row by row, as writes. -/
def rowsOf (m : MatReg) (l : List (List Half)) : Store Half :=
  ((List.range 4).flatMap fun r => (List.range 4).filterMap fun c =>
    (l.getD r [])[c]?.map fun x => (elKey m r c, x))

/-- `small` with `M[m]` of shape `(rows, cols)` and elements `l`. -/
def holding (m : MatReg) (rows cols : Half) (l : List (List Half)) (s : State) : State :=
  { s with shapes := s.shapes.set m ⟨rows, cols⟩, el := Store.setAll s.el (rowsOf m l) }

/-- The rows of `M[m]` that have been written, as far as its shape goes. -/
def rowsIn (s : State) (m : MatReg) : List (List (Option Half)) :=
  (List.range (s.shapes.get m).rows.toNat).map fun r =>
    (List.range (s.shapes.get m).cols.toNat).map fun c => s.elem? m r c

/-- The shape and rows of `M[m]` after an outcome. -/
def matrixAfter (o : Host.Outcome State Fault Refusal) (m : MatReg) : Option (Word × List (List (Option Half))) :=
  (nextOf o).map fun t => (shapeWord (t.shapes.get m), rowsIn t m)

/-- The `STATUS` word after an outcome. -/
def statusAfter (o : Host.Outcome State Fault Refusal) : Option Word := (nextOf o).map fun t => t.status.word

/-- The 2 + 1 engine of vector V-E3 at width 8 (95_test_vectors.md 2.5), with two data shards of 2 bytes. -/
def engine : State :=
  { holding .enc 3 2 [[1, 0], [0, 1], [0xF4, 0xF5]] small with
    status := { Status.reset with configured := true }
    cfgNdata := 2
    cfgNparity := 1
    engNdata := 2
    engNparity := 1
    slotCount := 3
    slotLen := [(0, 2), (1, 2), (2, 2)]
    slotPresent := [(0, true), (1, true), (2, true)]
    sh := [(shKey 0 0, 0x10), (shKey 0 1, 0x20), (shKey 1 0, 0x30), (shKey 1 1, 0x40)] }

/-- `engine` with the parity shard that V-E3 gives. -/
def encoded : State := { engine with sh := engine.sh ++ [(shKey 2 0, 0xDB), (shKey 2 1, 0x60)] }

/-- `encoded` with the data shard 1 absent, its bytes overwritten and its length 0. -/
def damaged : State :=
  { encoded with
    slotLen := [(0, 2), (1, 0), (2, 2)]
    slotPresent := [(0, true), (1, false), (2, true)]
    sh := [(shKey 0 0, 0x10), (shKey 0 1, 0x20), (shKey 1 0, 0xEE), (shKey 1 1, 0xEE), (shKey 2 0, 0xDB),
      (shKey 2 1, 0x60)] }

/-- `s` while the word `v` is pending. -/
def pending (v : Word) (s : State) : State := s.issue v

/-! ### Well-formedness: every check refuses an ill-formed command -/

theorem test_wf_identity_destination : (Instr.matIdentity .enc).wf = false := by decide
theorem test_wf_mul_destination : (Instr.matMul .w8 .enc .m0 .m1).wf = false := by decide
theorem test_wf_sub_destination : (Instr.matSub .enc .m0).wf = false := by decide
theorem test_wf_inv_destination : (Instr.matInv .w16 .enc .m0).wf = false := by decide
theorem test_wf_build_destination : (Instr.matBuild .w8 .enc).wf = false := by decide
theorem test_wf_source_enc : (Instr.matMul .w8 .m3 .enc .enc).wf = true := by decide

/-! ### Decoding: words written out bit by bit from 30_encoding.md R131 to R135 -/

theorem test_decode_nop : (decode 0x00000000).toOption = some .nop := by decide
theorem test_decode_gfAdd : (decode 0x00000101).toOption = some (.gfAdd .w16) := by decide
theorem test_decode_gfMul : (decode 0x00000002).toOption = some (.gfMul .w8) := by decide
theorem test_decode_gfDiv : (decode 0x00000003).toOption = some (.gfDiv .w8) := by decide
theorem test_decode_gfInv : (decode 0x00000104).toOption = some (.gfInv .w16) := by decide
theorem test_decode_gfPow : (decode 0x00000005).toOption = some (.gfPow .w8) := by decide
theorem test_decode_matIdentity : (decode 0x00000610).toOption = some (.matIdentity .m3) := by decide
theorem test_decode_matMul : (decode 0x00008411).toOption = some (.matMul .w8 .m2 .m0 .m1) := by decide
theorem test_decode_matSub : (decode 0x00004212).toOption = some (.matSub .m1 .enc) := by decide
theorem test_decode_matInv : (decode 0x00000213).toOption = some (.matInv .w8 .m1 .m0) := by decide
theorem test_decode_matBuild : (decode 0x00000114).toOption = some (.matBuild .w16 .m0) := by decide
theorem test_decode_rsConstruct : (decode 0x00000120).toOption = some (.rsConstruct .w16) := by decide
theorem test_decode_rsEncode : (decode 0x00000021).toOption = some .rsEncode := by decide
theorem test_decode_rsVerify : (decode 0x00000022).toOption = some .rsVerify := by decide
theorem test_decode_rsReconstruct : (decode 0x00000023).toOption = some .rsReconstruct := by decide

/-- The illegal words of 95_test_vectors.md 2.6. -/
theorem test_decode_illegal_words :
    [0x00040000, 0x80000002, 0x00000100, 0x00000E11, 0x00005011, 0x00028011, 0x00000121, 0x00001210, 0x00000112,
      0x00008012, 0x00000006, 0x00000015, 0x00000024, 0x000000FF].all
      (fun v : Word => (decode v).toOption == none) = true := by decide

theorem test_encode_words :
    [encode (.matMul .w8 .m2 .m0 .m3), encode (.matInv .w8 .m1 .m3), encode (.matMul .w16 .m2 .m0 .m1)] =
      [0x00018411, 0x00003213, 0x00008511] := by decide

theorem test_table_word : decodeTableWord 32 0x00008411 = some (.matMul .w8 .m2 .m0 .m1) ∧
    decodeTableWord 16 0xFFFF0021 = some .rsEncode ∧ decodeTableWord 40 0x100000021 = none := by decide

/-- The word that `withFetchWord` issues is the one that the next step completes. -/
theorem test_fetch_word :
    (nextOf (step (State.reset.withFetchWord 32 0x00000101))).map (fun t => (t.status.word, t.agenda)) =
      some (2, []) := by decide +kernel

/-! ### Field arithmetic (95_test_vectors.md 2.2) -/

theorem test_nop : statusAfter (exec .nop small) = some 2 := by decide +kernel
theorem test_gfAdd_truncates :
    (nextOf (exec (.gfAdd .w8) (operands 0x1253 0x0100 0))).map (·.gfR) = some 0x0053 := by decide +kernel
theorem test_gfAdd_wide :
    (nextOf (exec (.gfAdd .w16) (operands 0x1253 0x0100 0))).map (·.gfR) = some 0x1353 := by decide +kernel
theorem test_gfMul : (nextOf (exec (.gfMul .w8) (operands 0x53 0xCA 0))).map (·.gfR) = some 0x8F := by decide +kernel
theorem test_gfMul_wide :
    (nextOf (exec (.gfMul .w16) (operands 0x0002 0x8000 0))).map (·.gfR) = some 0x100B := by decide +kernel
theorem test_gfDiv : (nextOf (exec (.gfDiv .w8) (operands 0x12 0x34 0))).map (·.gfR) = some 0xC7 := by decide +kernel
theorem test_gfDiv_by_zero : statusAfter (exec (.gfDiv .w8) (operands 0x53 0xFF00 0)) = some 0x506 := by decide +kernel
theorem test_gfInv : (nextOf (exec (.gfInv .w8) (operands 0x53 0 0))).map (·.gfR) = some 0x8C := by decide +kernel
theorem test_gfInv_of_zero : statusAfter (exec (.gfInv .w16) (operands 0 7 0)) = some 0x506 := by decide +kernel
theorem test_gfPow : (nextOf (exec (.gfPow .w8) (operands 0x53 0 3))).map (·.gfR) = some 0xD0 := by decide +kernel
theorem test_gfPow_zero_to_zero :
    (nextOf (exec (.gfPow .w16) (operands 0 0 0))).map (·.gfR) = some 1 := by decide +kernel

/-! ### The matrix engine (95_test_vectors.md 2.3, 2.4) -/

theorem test_matIdentity : matrixAfter (exec (.matIdentity .m3) { small with argN := 2 }) .m3 =
    some (0x00020002, [[some 1, some 0], [some 0, some 1]]) := by decide +kernel
theorem test_matIdentity_too_large :
    statusAfter (exec (.matIdentity .m3) { small with argN := 5 }) = some 0xB06 := by decide +kernel
theorem test_matMul_in_place : matrixAfter (exec (.matMul .w8 .m0 .m0 .m0) (holding .m0 2 2 [[1, 2], [3, 4]] small)) .m0 =
    some (0x00020002, [[some 0x07, some 0x0A], [some 0x0F, some 0x16]]) := by decide +kernel
theorem test_matMul_truncates :
    matrixAfter (exec (.matMul .w8 .m2 .m0 .m1) (holding .m1 1 1 [[3]] (holding .m0 1 1 [[0x0102]] small))) .m2 =
      some (0x00010001, [[some 0x06]]) := by decide +kernel
theorem test_matSub :
    matrixAfter (exec (.matSub .m1 .m0)
      { holding .m0 2 2 [[1, 2], [3, 0x1234]] small with idxCount := 3, idx := [(0, 1), (1, 1), (2, 0)] }) .m1 =
      some (0x00030002, [[some 3, some 0x1234], [some 3, some 0x1234], [some 1, some 2]]) := by decide +kernel
theorem test_matSub_out_of_range :
    statusAfter (exec (.matSub .m1 .m0)
      { holding .m0 2 2 [[1, 2], [3, 0x1234]] small with idxCount := 3, idx := [(0, 1), (1, 2), (2, 0)] }) =
      some 0xA06 := by decide +kernel
theorem test_matInv : matrixAfter (exec (.matInv .w8 .m1 .m0) (holding .m0 2 2 [[1, 2], [3, 4]] small)) .m1 =
    some (0x00020002, [[some 0x02, some 0x01], [some 0x8F, some 0x8E]]) := by decide +kernel
theorem test_matInv_singular :
    statusAfter (exec (.matInv .w8 .m1 .m0) (holding .m0 2 2 [[2, 3], [4, 6]] small)) = some 0x606 := by decide +kernel
theorem test_matBuild :
    matrixAfter (exec (.matBuild .w8 .m0) { small with cfgNdata := 2, cfgNparity := 1 }) .m0 =
      some (0x00030002, [[some 1, some 0], [some 0, some 1], [some 0xF4, some 0xF5]]) := by decide +kernel
theorem test_matBuild_capacity :
    statusAfter (exec (.matBuild .w8 .m0) { small with cfgNdata := 2, cfgNparity := 3 }) = some 0x306 := by
  decide +kernel

/-! ### The Reed-Solomon engine (95_test_vectors.md 2.5) -/

theorem test_rsConstruct :
    (nextOf (exec (.rsConstruct .w8) { small with cfgNdata := 2, cfgNparity := 1 })).map
      (fun t => (t.status.word, t.engNdata, t.engNparity, rowsIn t .enc)) =
      some (0x12, 2, 1, [[some 1, some 0], [some 0, some 1], [some 0xF4, some 0xF5]]) := by decide +kernel
theorem test_rsConstruct_keeps_instance :
    (nextOf (exec (.rsConstruct .w8) { engine with cfgNdata := 255, cfgNparity := 1 })).map
      (fun t => (t.status.word, t.engNdata)) = some (0x316, 2) := by decide +kernel
theorem test_rsEncode :
    nextOf (exec .rsEncode engine) = some (afterSuccess encoded) := by decide +kernel
theorem test_rsEncode_absent_slot : statusAfter (exec .rsEncode damaged) = some 0x116 := by decide +kernel
theorem test_rsVerify : statusAfter (exec .rsVerify encoded) = some 0x1A := by decide +kernel
theorem test_rsVerify_mismatch :
    statusAfter (exec .rsVerify { encoded with sh := Store.set encoded.sh (shKey 2 1) 0x61 }) = some 0x12 := by
  decide +kernel
theorem test_rsReconstruct :
    nextOf (exec .rsReconstruct damaged) = some (afterSuccess encoded) := by decide +kernel
theorem test_rsReconstruct_too_few :
    statusAfter (exec .rsReconstruct
      { engine with slotLen := [(0, 2), (1, 3), (2, 2)], slotPresent := [(0, true), (1, false), (2, false)] }) =
      some 0x416 := by decide +kernel

/-! ### The bus (95_test_vectors.md 2.7) -/

/-- V-A1, through a whole step of the agenda. -/
theorem test_bus_reserved_offset :
    (nextOf (step { small with agenda := [.host (.read 0x2C 4)] })).map (fun t => (t.status.word, t.busData)) =
      some (0x40, [0, 0, 0, 0]) := by decide +kernel
/-- P5 step 2. -/
theorem test_bus_locked : busWrite 0x30 5 (pending 0x21 small) = rejectedAccess (pending 0x21 small) := by
  decide +kernel
/-- P1 step 1, and the byte lanes of 20_memory.md R91. -/
theorem test_bus_reads_id :
    (nextOf (step { small with agenda := [.host (.read 0 4)] })).map (·.busData) = some [0x54, 0x52, 0x43, 0x45] := by
  decide +kernel
/-- V-A6: `M[ENC]` is not writable by the host. -/
theorem test_bus_enc_shape : busWrite 0x44 0x00010001 (busWrite 0x40 4 small) = rejectedAccess { small with matSel := .enc } := by
  decide +kernel
/-- 95_test_vectors.md 2.1: `TBL_SEL = 1`, `TBL_IDX = 255` reads 1, and the next read is rejected. -/
theorem test_bus_table_end :
    busRead 0x98 { small with tblSel := 1, tblIdx := 255 } = (1, { small with tblSel := 1, tblIdx := 256 }) ∧
      (busRead 0x98 { small with tblSel := 1, tblIdx := 256 }).2.status.word = 0x40 := by decide +kernel
/-- An address outside the block is the model's stop. -/
theorem test_bus_outside :
    (match step { small with agenda := [.host (.read 256 4)] } with
      | .fault .addressOutsideBlock => true
      | _ => false) = true := by decide +kernel

/-! ### Witnesses: for each statement with hypotheses, values that meet all of them, clause by clause -/

/-- The boundary opcodes of each reserved range, with other bits set in the last. -/
theorem test_witness_ReservedOpcodesAreIllegal :
    [0x06, 0x0F, 0x15, 0x1F, 0x24, 0xFF, 0xABCDEF15].all (fun v : Word =>
      let opc := v.toNat % 256
      decide ((0x06 ≤ opc ∧ opc ≤ 0x0F) ∨ (0x15 ≤ opc ∧ opc ≤ 0x1F) ∨ 0x24 ≤ opc)) = true := by decide

theorem test_witness_StepRunsDecodedCommand :
    let s := pending 0x00000101 small
    s.status.busy = true ∧ s.pend = some 0x00000101 ∧ (decode 0x00000101).toOption = some (.gfAdd .w16) ∧
      s.agenda = [] ∧ { s with agenda := [.engine, .reset] }.agenda = .engine :: [.reset] := by decide

theorem test_witness_IllegalWordCompletesWithCode8 :
    let s := pending 0x00028011 small
    s.status.busy = true ∧ s.pend = some 0x00028011 ∧ decode 0x00028011 = .error .source ∧ s.agenda = [] ∧
      { s with agenda := [.engine] }.agenda = .engine :: [] := ⟨rfl, rfl, rfl, rfl, rfl⟩

/-- A command with and one without the extra write of RS_VERIFY. -/
theorem test_witness_FailedCommandChangesOnlyStatus :
    ((nextOf (exec (.gfDiv .w8) small)).map (·.status.err)) = some true ∧
      ((nextOf (exec .rsVerify { small with status := { Status.reset with verifyOk := true } })).map
        (·.status.err)) = some true := by decide +kernel

theorem test_witness_ResultFieldsWrittenOnlyByTheirCommand :
    (nextOf (exec .nop small)).isSome = true ∧ Instr.nop ≠ .rsVerify ∧
      (nextOf (exec (.gfInv .w8) small)).map (·.status.err) = some true ∧
      (nextOf (exec (.rsConstruct .w8) small)).map (·.status.err) = some true := by decide +kernel

theorem test_witness_ErrorCodesPerCommand :
    [Instr.nop, .gfAdd .w8, .gfMul .w8, .gfDiv .w8, .gfInv .w8, .gfPow .w8, .matIdentity .m0, .matMul .w8 .m0 .m0 .m0,
      .matSub .m0 .m0, .matInv .w8 .m0 .m0, .matBuild .w8 .m0, .rsConstruct .w8, .rsEncode, .rsVerify,
      .rsReconstruct].map (fun i => (nextOf (exec i small)).map (·.status.errCode)) =
      [some 0, some 0, some 0, some 5, some 5, some 0, some 0, some 0, some 0, some 0, some 1, some 1, some 9, some 9,
        some 9] := by decide +kernel

theorem test_witness_GfDivResult :
    lowPart .w8 (operands 1 0xFF 0).gfB ≠ 0 ∧ lowPart .w8 (operands 1 0xFF00 0).gfB = 0 ∧
      lowPart .w16 (operands 1 0xFF00 0).gfB ≠ 0 := by decide

theorem test_witness_GfInvResult :
    lowPart .w8 (operands 0xFF 0 0).gfA ≠ 0 ∧ lowPart .w8 (operands 0xFF00 0 0).gfA = 0 ∧
      lowPart .w16 (operands 0xFF00 0 0).gfA ≠ 0 := by decide

/-- The first and the last index of the recurrence. -/
theorem test_witness_ExpTableIsPowersOfTwo :
    (1 ≤ 1 ∧ 1 ≤ 2 ^ Width.w8.bits - 2) ∧ (1 ≤ 254 ∧ 254 ≤ 2 ^ Width.w8.bits - 2) ∧
      (1 ≤ 65534 ∧ 65534 ≤ 2 ^ Width.w16.bits - 2) := by decide

/-- The elements with the least and the greatest logarithm. -/
theorem test_witness_LogTableInvertsExpTable :
    (IsElem .w8 1 ∧ (1 : Half) ≠ 0 ∧ 0 ≤ 2 ^ Width.w8.bits - 2 ∧ expTable .w8 0 = 1) ∧
      (IsElem .w8 0x8E ∧ (0x8E : Half) ≠ 0 ∧ 254 ≤ 2 ^ Width.w8.bits - 2 ∧ expTable .w8 254 = 0x8E) ∧
      (IsElem .w16 0xFFFF ∧ (0xFFFF : Half) ≠ 0) := by
  unfold IsElem
  decide +kernel

theorem test_witness_FieldLaws :
    (IsElem .w8 0xFF ∧ IsElem .w8 0x53 ∧ IsElem .w8 0) ∧ (0x53 : Half) ≠ 0 ∧ gfMul .w8 0x53 0x8C = 1 ∧
      IsElem .w8 0x8C := by
  unfold IsElem
  decide +kernel

/-- The last size that fits and the first that does not. -/
theorem test_witness_MatIdentityResult :
    MatReg.m3.general = true ∧ small.params.wf = true ∧ { small with argN := 4 }.argN.toNat ≤ small.params.nMax ∧
      small.params.nMax < { small with argN := 5 }.argN.toNat := by decide

theorem test_witness_MatMulResult :
    MatReg.m0.general = true ∧
      ((holding .m0 2 2 [[1, 2], [3, 4]] small).shapes.get .m0).cols =
        ((holding .m0 2 2 [[1, 2], [3, 4]] small).shapes.get .m0).rows ∧
      ((holding .m0 1 2 [[1, 2]] small).shapes.get .m0).cols ≠
        ((holding .m0 1 2 [[1, 2]] small).shapes.get .m0).rows := by decide +kernel

/-- `M[0]` with two rows: index 1 is in range and index 2 is not. -/
theorem test_witness_MatSubResult :
    MatReg.m1.general = true ∧
      (let s := { holding .m0 2 1 [[1], [2]] small with idxCount := 1, idx := [(0, 1)] }
       ∀ j < s.idxCount.toNat, (s.idxAt [0] j).toNat < (s.shapes.get .m0).rows.toNat) ∧
      (let s := { holding .m0 2 1 [[1], [2]] small with idxCount := 1, idx := [(0, 2)] }
       ∃ j < s.idxCount.toNat, (s.shapes.get .m0).rows.toNat ≤ (s.idxAt [0] j).toNat) := by decide +kernel

/-- The elements of the inverse that 95_test_vectors.md V-M4 gives for `[[1,2],[3,4]]`. -/
def inverseEl (r c : Nat) : Half := if r = 0 then (if c = 0 then 2 else 1) else (if c = 0 then 0x8F else 0x8E)

theorem inverseEl_isElem (r c : Nat) : IsElem .w8 (inverseEl r c) := by
  unfold IsElem inverseEl
  split <;> split <;> decide

/-- An invertible operand, by its inverse. -/
theorem test_witness_MatInvResult_invertible :
    let s := holding .m0 2 2 [[1, 2], [3, 4]] small
    MatReg.m1.general = true ∧ (s.shapes.get .m0).rows = (s.shapes.get .m0).cols ∧
      ∃ f : Nat → Nat → Half, (∀ r c, IsElem .w8 (f r c)) ∧
        matMul .w8 (Mat.ofFn 2 2 f) (Mat.ofFn 2 2 fun r c => lowPart .w8 (s.elAt [0] .m0 r c)) = .ok (identity 2) :=
  ⟨by decide, by decide +kernel, inverseEl, inverseEl_isElem, by
    have h : Mat.ofFn 2 2 (fun r c => lowPart .w8 ((holding .m0 2 2 [[1, 2], [3, 4]] small).elAt [0] .m0 r c)) =
        ⟨2, 2, [[1, 2], [3, 4]]⟩ := by decide +kernel
    rw [h]
    decide +kernel⟩

/-- An operand without an inverse, and one that is not square. -/
theorem test_witness_MatInvResult_singular :
    let s := holding .m0 1 1 [[0]] small
    (s.shapes.get .m0).rows = (s.shapes.get .m0).cols ∧
      (¬ ∃ f : Nat → Nat → Half, (∀ r c, IsElem .w8 (f r c)) ∧
        matMul .w8 (Mat.ofFn 1 1 f) (Mat.ofFn 1 1 fun r c => lowPart .w8 (s.elAt [0] .m0 r c)) = .ok (identity 1)) ∧
      ((holding .m0 1 3 [[1, 2, 3]] small).shapes.get .m0).rows ≠
        ((holding .m0 1 3 [[1, 2, 3]] small).shapes.get .m0).cols := by
  refine ⟨by decide +kernel, ?_, by decide +kernel⟩
  rintro ⟨f, -, h⟩
  have hz : Mat.ofFn 1 1 (fun r c => lowPart .w8 ((holding .m0 1 1 [[0]] small).elAt [0] .m0 r c)) =
      ⟨1, 1, [[0]]⟩ := by decide +kernel
  rw [hz] at h
  simp [matMul, Mat.ofFn, identity, dot, xorSum, gfMul, tabulate, Mat.at, cell] at h

theorem test_witness_MatrixAlgebra :
    (∀ r c, IsElem .w8 (inverseEl r c)) ∧
      matInv .w8 (Mat.ofFn 2 2 inverseEl) = .ok ⟨2, 2, [[1, 2], [3, 4]]⟩ :=
  ⟨inverseEl_isElem, by decide +kernel⟩

/-- The coefficients of the 2 + 1 matrix of V-B6 by the rule of the statement: `E` times the top block of `V` is `V`. -/
theorem test_build_coefficients :
    ∀ r < 3, ∀ c < 2,
      xorSum 2 (fun k => gfMul .w8 (cell [[1, 0], [0, 1], [0xF4, 0xF5]] r k) (gfPowIter .w8 (BitVec.ofNat 16 (k + 1)) c)) =
        gfPowIter .w8 (BitVec.ofNat 16 (r + 1)) c := by decide +kernel

/-- The largest code at width 8, and a selection of its last row. -/
theorem test_witness_BuildIsSystematicAndInvertible :
    1 ≤ 1 ∧ 1 + 254 ≤ 2 ^ Width.w8.bits - 1 ∧ [254].length = 1 ∧ [254].Nodup ∧ ∀ r ∈ [254], r < 1 + 254 := by decide

/-- No data shard; one more than the field limit; one more than the capacity. -/
theorem test_witness_BuildersRejectBadCounts :
    MatReg.m0.general = true ∧ small.cfgNdata.toNat = 0 ∧
      (let s := { State.resetOf ⟨65535, 8, 0⟩ with cfgNdata := 255, cfgNparity := 1 }
       s.cfgNdata.toNat ≠ 0 ∧ 2 ^ Width.w8.bits - 1 < s.cfgNdata.toNat + s.cfgNparity.toNat) ∧
      (let s := { small with cfgNdata := 2, cfgNparity := 3 }
       s.cfgNdata.toNat ≠ 0 ∧ s.params.nMax < s.cfgNdata.toNat + s.cfgNparity.toNat) := by decide

/-- The counts of `engine`, with the matrix of V-B6. -/
theorem test_witness_MatBuildResult_and_RsConstructResult :
    MatReg.m0.general = true ∧ engine.params.wf = true ∧ engine.cfgNdata ≠ 0 ∧
      engine.cfgNdata.toNat + engine.cfgNparity.toNat ≤ 2 ^ Width.w8.bits - 1 ∧
      engine.cfgNdata.toNat + engine.cfgNparity.toNat ≤ engine.params.nMax ∧
      build .w8 engine.cfgNdata.toNat engine.cfgNparity.toNat = .ok ⟨3, 2, [[1, 0], [0, 1], [0xF4, 0xF5]]⟩ := by
  decide +kernel

theorem test_witness_EngineCommandsCheckInstanceAndCount :
    small.status.configured = false ∧ engine.status.configured = true ∧
      { engine with slotCount := 4 }.slotCount.toNat ≠ engine.engNdata.toNat + engine.engNparity.toNat := by decide

/-- An absent slot; unequal lengths; length 0; an odd length with 16-bit symbols. -/
theorem test_witness_EncodeAndVerifyCheckTheSet :
    engine.status.configured = true ∧ engine.slotCount.toNat = engine.engNdata.toNat + engine.engNparity.toNat ∧
      (∃ k < damaged.slotCount.toNat, damaged.slotPresentAt [0] k = false) ∧
      (∀ k < engine.slotCount.toNat, engine.slotPresentAt [0] k = true) ∧
      (let s := { engine with slotLen := [(0, 2), (1, 3), (2, 2)] }
       ∃ k < s.slotCount.toNat, (s.slotLenAt [1] k).toNat ≠ (s.slotLenAt [0] 0).toNat) ∧
      ({ engine with slotLen := [(0, 0), (1, 0), (2, 0)] }.slotLenAt [0] 0).toNat = 0 ∧
      (let s := { engine with
          slotLen := [(0, 5), (1, 5), (2, 5)], status := { engine.status with engW16 := true } }
       s.status.engW16 = true ∧ (s.slotLenAt [0] 0).toNat % 2 = 1) := by decide +kernel

theorem test_witness_RsEncodeResult_and_RsVerifyResult :
    encoded.status.configured = true ∧ encoded.slotCount.toNat = encoded.nTotal ∧
      (∀ k < encoded.nTotal, encoded.slotPresentAt [0] k = true) ∧
      (∀ k < encoded.nTotal, (encoded.slotLenAt [1] k).toNat = (encoded.slotLenAt [0] 0).toNat) ∧
      (encoded.slotLenAt [0] 0).toNat ≠ 0 ∧
      (encoded.status.engW16 = true → (encoded.slotLenAt [0] 0).toNat % 2 = 0) := by decide +kernel

/-- Both outcomes of a verify that passes the checks. -/
theorem test_witness_RsVerifyResult_outcomes :
    encoded.parityMatches = true ∧
      { encoded with sh := Store.set encoded.sh (shKey 2 1) 0x61 }.parityMatches = false := by decide +kernel

theorem engine_arrays : ArrayInv engine where
  idxCount := by decide
  slotCount := by decide
  shapes := by intro m; cases m <;> decide +kernel
  elWf := by decide +kernel
  idxWf := by decide
  lenWf := by decide
  presentWf := by decide
  shWf := by decide
  elRange := by
    have h : engine.el = [(elKey .enc 0 0, 1), (elKey .enc 0 1, 0), (elKey .enc 1 0, 0), (elKey .enc 1 1, 1),
        (elKey .enc 2 0, 0xF4), (elKey .enc 2 1, 0xF5)] := by decide +kernel
    rw [h]
    simp only [List.forall_mem_cons, List.not_mem_nil, false_imp_iff, implies_true, and_true]
    exact ⟨⟨.enc, 0, 0, by decide, by decide, rfl⟩, ⟨.enc, 0, 1, by decide, by decide, rfl⟩,
      ⟨.enc, 1, 0, by decide, by decide, rfl⟩, ⟨.enc, 1, 1, by decide, by decide, rfl⟩,
      ⟨.enc, 2, 0, by decide, by decide, rfl⟩, ⟨.enc, 2, 1, by decide, by decide, rfl⟩⟩
  idxRange := by decide
  lenRange := by decide
  presentRange := by decide
  shRange := by
    simp only [engine, List.forall_mem_cons, List.not_mem_nil, false_imp_iff, implies_true, and_true]
    exact ⟨⟨0, 0, by decide, by decide, rfl⟩, ⟨0, 1, by decide, by decide, rfl⟩,
      ⟨1, 0, by decide, by decide, rfl⟩, ⟨1, 1, by decide, by decide, rfl⟩⟩

theorem engine_instance : EngineInv engine where
  built _ := ⟨by decide, by decide, by decide, by decide +kernel, ⟨3, 2, [[1, 0], [0, 1], [0xF4, 0xF5]]⟩,
    by decide +kernel, by decide +kernel⟩
  absent h := by cases h

/-- The invariant of a run holds in `engine`. -/
theorem engine_inv : Inv engine where
  control := ⟨by decide, by decide, by decide, by decide, by decide⟩
  arrays := engine_arrays
  engine := engine_instance

theorem engine_full : FullSet engine 2 := by
  unfold FullSet
  decide +kernel

theorem engine_dataWritten : DataWritten engine 2 := by
  unfold DataWritten
  decide +kernel

theorem test_witness_EncodeThenVerifyMatches : Inv engine ∧ FullSet engine 2 ∧ DataWritten engine 2 :=
  ⟨engine_inv, engine_full, engine_dataWritten⟩

/-- A bad length among the present slots; and good ones with two slots absent. -/
theorem test_witness_ReconstructChecksLengthThenCount :
    (let s := { engine with slotLen := [(0, 2), (1, 3), (2, 1)], slotPresent := [(0, true), (1, true), (2, false)] }
     s.status.configured = true ∧ s.slotCount.toNat = s.nTotal ∧ s.presentSet = [0, 1] ∧
       ∃ k ∈ s.presentSet, s.slotLenAt [1] k ≠ s.slotLenAt [0] 0) ∧
    (let s := { engine with slotPresent := [(0, true), (1, false), (2, false)] }
     s.presentSet = [0] ∧ (∀ k ∈ s.presentSet, s.slotLenAt [1] k = s.slotLenAt [0] 0) ∧ s.slotLenAt [0] 0 ≠ 0 ∧
       s.status.engW16 = false ∧ s.nParity < s.absentSet.length) := by decide +kernel

theorem test_witness_ReconstructOfFullSetWritesNothing : FullSet engine 2 ∧ 1 ≤ engine.nTotal :=
  ⟨engine_full, by decide⟩

theorem test_witness_RsReconstructResult :
    damaged.status.configured = true ∧ damaged.slotCount.toNat = damaged.nTotal ∧ damaged.presentSet = 0 :: [2] ∧
      (∀ k ∈ damaged.presentSet, damaged.slotLenAt [1] k = damaged.slotLenAt [0] 0) ∧ damaged.slotLenAt [0] 0 ≠ 0 ∧
      (damaged.status.engW16 = true → (damaged.slotLenAt [0] 0).toNat % 2 = 0) ∧ 1 ≤ damaged.absentSet.length ∧
      damaged.absentSet.length ≤ damaged.nParity ∧
      (match matInv damaged.engWidth (Mat.ofFn damaged.nData damaged.nData fun j c =>
          lowPart damaged.engWidth (damaged.elAt [0] .enc ((damaged.presentSet.take damaged.nData).getD j 0) c)) with
        | .ok _ => true
        | .error _ => false) = true := by decide +kernel

theorem damaged_outside (k o : Nat) (hk : k ∉ [1]) (ho : o < 2 ^ 32) :
    Store.get? damaged.sh (shKey k o) = (afterSuccess encoded).byte? k o := by
  have h0 : shKey k o ≠ shKey 1 0 := by simp at hk; unfold shKey; omega
  have h1 : shKey k o ≠ shKey 1 1 := by simp at hk; unfold shKey; omega
  simp [damaged, encoded, engine, afterSuccess, State.byte?, Store.get?, h0, h1]

/-- Data shard 1 lost after the encode of `engine`. -/
theorem test_witness_ReconstructRestoresLostShards :
    Inv engine ∧ FullSet engine 2 ∧ DataWritten engine 2 ∧ nextOf (exec .rsEncode engine) = some (afterSuccess encoded) ∧
      [1].Nodup ∧ (∀ k ∈ [1], k < engine.nTotal) ∧ [1].length ≤ engine.nParity ∧
      (∀ k o, k ∉ [1] → o < 2 ^ 32 → Store.get? damaged.sh (shKey k o) = (afterSuccess encoded).byte? k o) ∧
      (∀ k, k ∉ [1] → Store.get? damaged.slotLen k = Store.get? (afterSuccess encoded).slotLen k) ∧
      (∀ k, Store.get? damaged.slotPresent k =
        if k ∈ [1] then some false else Store.get? (afterSuccess encoded).slotPresent k) := by
  refine ⟨engine_inv, engine_full, engine_dataWritten, test_rsEncode, by decide, by decide, by decide,
    fun k o hk ho => damaged_outside k o hk ho, ?_, ?_⟩
  · intro k hk
    simp at hk
    simp [damaged, encoded, engine, afterSuccess, Store.get?, hk]
  · intro k
    by_cases hk : k = 1 <;> simp [damaged, encoded, engine, afterSuccess, Store.get?, hk]

/-- Slot 3 and byte 2 of slot 0 lie outside the set. -/
theorem test_witness_VerifyIgnoresWhatLiesOutsideTheSet :
    let sh := Store.set (Store.set encoded.sh (shKey 0 2) 7) (shKey 3 0) 9
    let lens := encoded.slotLen ++ [(3, 7)]
    let present := encoded.slotPresent ++ [(3, false)]
    FullSet encoded 2 ∧ 1 ≤ encoded.nTotal ∧
      (∀ k < encoded.nTotal, ∀ o < (2 : Word).toNat, Store.get? sh (shKey k o) = encoded.byte? k o) ∧
      (∀ k < encoded.nTotal, Store.get? lens k = Store.get? encoded.slotLen k ∧
        Store.get? present k = Store.get? encoded.slotPresent k) ∧
      (nextOf (exec .rsVerify encoded)).isSome = true ∧
      (nextOf (exec .rsVerify { encoded with sh := sh, slotLen := lens, slotPresent := present })).isSome = true := by
  unfold FullSet
  decide +kernel

/-- The least and the greatest parameters. -/
theorem test_witness_ResetSatisfiesInvariant :
    (⟨1, 1, 0⟩ : Params).wf = true ∧ (⟨65535, 2 ^ 32 - 1, 256⟩ : Params).wf = true ∧ State.reset.params.wf = true := by
  decide

/-- The invariants hold in a busy state whose next step is an encode. -/
theorem test_witness_StepKeepsInvariants :
    let s := pending 0x00000021 engine
    s.params.wf = true ∧ ControlInv s ∧ ArrayInv s ∧ EngineInv s ∧ (nextOf (step s)).isSome = true :=
  ⟨by decide, ⟨by decide, by decide, by decide, by decide, by decide⟩,
    ⟨engine_arrays.idxCount, engine_arrays.slotCount, engine_arrays.shapes, engine_arrays.elWf, engine_arrays.idxWf,
      engine_arrays.lenWf, engine_arrays.presentWf, engine_arrays.shWf, engine_arrays.elRange, engine_arrays.idxRange,
      engine_arrays.lenRange, engine_arrays.presentRange, engine_arrays.shRange⟩,
    ⟨engine_instance.built, engine_instance.absent⟩, by decide +kernel⟩

/-- A construct that replaces the instance, and an encode that keeps it. -/
theorem test_witness_InstanceChangesOnlyByConstructOrReset :
    (nextOf (step (pending 0x00000020 engine))).map (fun t => t.status.err) = some false ∧
      (nextOf (step (pending 0x00000021 engine))).map (fun t => t.engNdata) = some 2 := by decide +kernel

theorem test_witness_EngineWriteSets :
    let s := pending 0x00000022 encoded
    s.status.busy = true ∧ s.pend = some 0x00000022 ∧ s.agenda = [] ∧ (nextOf (step s)).isSome = true ∧
      (decode 0x00000022).toOption = some .rsVerify := by decide +kernel

/-- `ACCERR` cleared by a host write of `STATUS`. -/
theorem test_witness_AccessErrorIsSticky :
    let s := { small with
      status := { Status.reset with accErr := true }, agenda := [.host (.write 0x0C [0x40, 0, 0, 0])] }
    s.status.accErr = true ∧ (nextOf (step s)).map (fun t => t.status.accErr) = some false := by decide +kernel

theorem test_witness_ResetStepClearsEverything :
    { pending 0x21 engine with agenda := [.reset, .engine] }.agenda = .reset :: [.engine] ∧
      (∃ r : Reg, r ≠ .id ∧ r ≠ .capNmax ∧ r ≠ .capShcap ∧ r ≠ .matData ∧ r ≠ .idxData ∧ r ≠ .slotLen ∧
        r ≠ .slotPresent ∧ r ≠ .shData ∧ r ≠ .tblData) := ⟨rfl, .gfA, by decide⟩

/-- The first and the last offset of the reserved range. -/
theorem test_witness_ReservedOffsetsRejected :
    (0x2C : BitVec 8) ∈ [(0x2C : BitVec 8), 0x54, 0x58, 0x5C, 0x6C, 0x8C] ∧
      [0x9C, 0xFC].all (fun off : BitVec 8 => decide (0x9C ≤ off.toNat ∧ off.toNat ≤ 0xFC)) := by
  decide

/-- A byte access at the last address of the block, and an unaligned word access. -/
theorem test_witness_UnalignedOrPartialAccessRejected :
    small.params.wf = true ∧ small.params.base ≤ 255 ∧ 255 < small.params.base + 256 ∧ ((1 ≠ 4) ∨ 255 % 4 ≠ 0) ∧
      ([0, 0, 0, 0] : List Byte).length = 4 ∧ 0x32 % 4 ≠ 0 ∧
      { small with agenda := [.host (.read 255 1)] }.agenda = .host (.read 255 1) :: [] ∧
      { small with agenda := [.host (.write 0x32 [0, 0, 0, 0])] }.agenda = .host (.write 0x32 [0, 0, 0, 0]) :: [] := by
  decide

theorem test_witness_BusyLock :
    (pending 0x21 small).status.busy = true ∧ (0x30 : BitVec 8) ∉ [(0x00 : BitVec 8), 0x04, 0x08, 0x0C, 0x14] ∧
      (0x0C : BitVec 8) ∈ [(0x0C : BitVec 8), 0x14] ∧
      (busWrite 0x14 3 { pending 0x21 small with status := { Status.reset with busy := true, accErr := true } }).status.accErr =
        true := by decide +kernel

theorem test_witness_CommandWriteIssues :
    small.status.busy = false ∧ (pending 0x21 small).status.busy = true := by decide

/-- An idle state, and a busy one for `INT_EN`, where a word with bits above the register's width is stored cut. -/
theorem test_witness_PlainRegistersStoreLowBits :
    small.status.busy = false ∧ (pending 0x21 small).status.busy = true ∧
      (busWrite 0x14 0xFFFFFFFE (pending 0x21 small)).intEn = 2 ∧
      (busWrite 0x90 0xFFFFFFFE small).tblSel = 2 ∧ (busWrite 0x34 0xFFFF1234 small).gfB = 0x1234 ∧
      (busWrite 0x34 0xFFFF1234 small).gfA = 0 := by decide +kernel

/-- The last value in range and the first out of range of each register, with `N_MAX = 4` and `SHARD_CAP = 8`. -/
theorem test_witness_RangeCheckedRegisters :
    small.status.busy = false ∧ small.params.wf = true ∧ (4 : Word).toNat ≤ 4 ∧ 4 < (5 : Word).toNat ∧
      { small with matSel := .enc }.matSel = .enc ∧ small.matSel ≠ .enc ∧
      small.params.nMax < (0x00050000 : Word).toNat / 2 ^ 16 ∧ small.params.nMax < (5 : Word).toNat % 2 ^ 16 ∧
      (0x00040004 : Word).toNat / 2 ^ 16 ≤ small.params.nMax ∧ (0x00040004 : Word).toNat % 2 ^ 16 ≤ small.params.nMax ∧
      small.params.nMax < (5 : Word).toNat ∧ (4 : Word).toNat ≤ small.params.nMax ∧
      small.params.nMax ≤ { small with slotSel := 4 }.slotSel.toNat ∧ small.params.shardCap < (9 : Word).toNat := by
  decide

theorem test_witness_ReadOnlyRegisters :
    small.status.busy = false ∧ (0x98 : BitVec 8) ∈ [(0x00 : BitVec 8), 0x04, 0x08, 0x20, 0x24, 0x3C, 0x98] := by decide

/-- The last element in range and the first out of range; a written element; and the read-only `M[ENC]`. -/
theorem test_witness_MatrixWindow :
    small.status.busy = false ∧ small.params.wf = true ∧
      (let s := { engine with matRow := 3, matCol := 3 }
       s.matRow.toNat < s.params.nMax ∧ s.matCol.toNat < s.params.nMax ∧ s.matSel ≠ .enc) ∧
      ¬ ({ engine with matCol := 4 }.matCol.toNat < engine.params.nMax) ∧
      (let s := { engine with matSel := .enc, matRow := 2, matCol := 1 }
       s.matSel = .enc ∧ s.elem? s.matSel s.matRow.toNat s.matCol.toNat = some 0xF5) := by decide +kernel

/-- The last byte in range, a written byte, and the first slot and offset out of range. -/
theorem test_witness_ShardWindow :
    small.status.busy = false ∧ small.params.wf = true ∧
      (let s := { small with shSlot := 3, shOff := 7 }
       s.shSlot.toNat < s.params.nMax ∧ s.shOff.toNat < s.params.shardCap) ∧
      encoded.byte? encoded.shSlot.toNat encoded.shOff.toNat = some 0x10 ∧
      ¬ ({ small with shSlot := 4 }.shSlot.toNat < small.params.nMax) ∧
      ¬ ({ small with shOff := 8 }.shOff.toNat < small.params.shardCap) := by decide

/-- The last entry in range and the first out of range of each window. -/
theorem test_witness_IndexDescriptorAndTableWindows :
    small.status.busy = false ∧ small.params.nMax ≤ { small with idxPtr := 4 }.idxPtr.toNat ∧
      { small with idxPtr := 3 }.idxPtr.toNat < small.params.nMax ∧
      Store.get? { small with idxPtr := 3, idx := [(3, 9)] }.idx 3 = some 9 ∧
      { small with slotSel := 3 }.slotSel.toNat < small.params.nMax ∧ (8 : Word).toNat ≤ small.params.shardCap ∧
      small.params.nMax ≤ { small with slotSel := 4 }.slotSel.toNat ∧
      2 ≤ { small with tblSel := 2, tblIdx := 0xFFFF }.tblSel.toNat ∧
      { small with tblIdx := 255 }.tblIdx.toNat < 256 ∧
      ({ small with tblSel := 1, tblIdx := 256 }.tblSel.toNat < 2 ∧ 256 ≤ { small with tblIdx := 256 }.tblIdx.toNat) := by
  decide

/-- A completion with bit 0 of `INT_EN`, a rejected write and a rejected read with bit 1, and an idle state. -/
theorem test_witness_InterruptFollowsStatusAndEnables :
    ((nextOf (exec .nop { small with intEn := 1 })).isSome = true ∧ { small with intEn := 1 }.intEn.getLsbD 0 = true) ∧
      (busWrite 0x2C 0 { small with intEn := 2 } = rejectedAccess { small with intEn := 2 } ∧
        busRead 0x2C { small with intEn := 2 } = (0, rejectedAccess { small with intEn := 2 }) ∧
        { small with intEn := 2 }.intEn.getLsbD 1 = true) ∧ small.status.busy = false := by decide +kernel

/-- V-A7 and V-A8: `DONE` alone does not raise the interrupt of `ACCERR_IE`, nor `ACCERR` that of `DONE_IE`. -/
theorem test_interrupt_sources :
    { small with status := { Status.reset with done := true }, intEn := 2 }.irq = false ∧
      { small with status := { Status.reset with accErr := true }, intEn := 1 }.irq = false ∧
      (busWrite 0x0C 0x40 { small with status := { Status.reset with accErr := true }, intEn := 2 }).irq = false := by
  decide

/-- The first and the last word of a block at a base that is not 0, with its byte lanes. -/
theorem test_witness_BusLanesAreLittleEndian :
    let s := State.resetOf ⟨4, 8, 512⟩
    s.params.wf = true ∧ (s.params.base ≤ 512 ∧ 512 < s.params.base + 256 ∧ 512 % 4 = 0) ∧
      (s.params.base ≤ 764 ∧ 764 < s.params.base + 256 ∧ 764 % 4 = 0) ∧
      { s with agenda := [.host (.read 764 4)] }.agenda = .host (.read 764 4) :: [] ∧
      { s with agenda := [.host (.write 512 [0x78, 0x56, 0x34, 0x12])] }.agenda =
        .host (.write 512 [0x78, 0x56, 0x34, 0x12]) :: [] ∧
      ([0x78, 0x56, 0x34, 0x12] : List Byte).length = 4 ∧
      ∀ k < 4, ([0x78, 0x56, 0x34, 0x12] : List Byte)[k]? =
        some (BitVec.ofNat 8 ((0x12345678 : Word).toNat / 2 ^ (8 * k))) := by decide

end Sys2Proof.Tests
end

section
/-! SUPPORT. The rules that the state statements share: what one accepted register access can do, the accesses by
register instead of by offset, the commands that have an encoding, and an invariant's step from its closure under each
operation. -/

namespace Sys2Proof.Machine

variable {s t u : State}

/-! ### The register map -/

theorem mem_allRegs (r : Reg) : r ∈ allRegs := by cases r <;> decide

theorem regAt_regOffset (r : Reg) : regAt (regOffset r) = some r := by cases r <;> decide

/-- An offset is reserved when it is no register's. -/
theorem regAt_eq_none_iff {off : BitVec 8} : regAt off = none ↔ ∀ r, regOffset r ≠ off := by
  simp [regAt, mem_allRegs]

theorem regOffset_le (r : Reg) : (regOffset r).toNat ≤ 0x98 := by cases r <;> decide

/-- No register lies in a gap of the map (10_state.md R61). -/
theorem regOffset_notMem_gaps (r : Reg) : regOffset r ∉ [0x2C, 0x54, 0x58, 0x5C, 0x6C, 0x8C] := by
  cases r <;> decide

/-! ### Accesses by register -/

theorem lockedOut_of_idle {w : Bool} {r : Reg} (h : s.status.busy = false) : lockedOut w r s = false := by
  simp [lockedOut, h]

theorem lockedOut_of_open {w : Bool} {r : Reg} (s : State) (h : openWhileBusy w r = true) :
    lockedOut w r s = false := by
  simp [lockedOut, h]

theorem busRead_reserved {off : BitVec 8} (s : State) (h : regAt off = none) : busRead off s = (0, s.reject) := by
  simp [busRead, h]

theorem busWrite_reserved {off : BitVec 8} (v : Word) (s : State) (h : regAt off = none) :
    busWrite off v s = s.reject := by
  simp [busWrite, h]

/-- An access that the busy lock passes is the register's own (20_memory.md R97). -/
theorem busRead_accepted {r : Reg} {a : Word × State} (hl : lockedOut false r s = false) (h : readReg r s = some a) :
    busRead (regOffset r) s = a := by
  simp [busRead, regAt_regOffset, hl, h]

theorem busWrite_accepted {r : Reg} {v : Word} (hl : lockedOut true r s = false) (h : writeReg r v s = some u) :
    busWrite (regOffset r) v s = u := by
  simp [busWrite, regAt_regOffset, hl, h]

/-- What a register refuses is rejected, whether or not the busy lock lets the access through. -/
theorem busWrite_refused {r : Reg} {v : Word} (h : writeReg r v s = none) : busWrite (regOffset r) v s = s.reject := by
  simp [busWrite, regAt_regOffset, h]

/-! ### What an accepted write can do -/

/-- The effect of an accepted write: one case for each kind of register (10_state.md R62). -/
inductive RegWrite (s : State) : State → Prop
  | status (v : Word) : RegWrite s { s with status := s.status.clearedBy v }
  | issue (v : Word) : RegWrite s (s.issue v)
  | plain (ie ts : BitVec 2) (nd np an ga gb mr mc ip ss hs ti : Half) (gn ho : Word) (ms : MatReg) :
      RegWrite s { s with
        intEn := ie, cfgNdata := nd, cfgNparity := np, argN := an, gfA := ga, gfB := gb, gfN := gn, matSel := ms,
        matRow := mr, matCol := mc, idxPtr := ip, slotSel := ss, shSlot := hs, shOff := ho, tblSel := ts, tblIdx := ti }
  | shape (x : Shape) (hsel : s.matSel ≠ .enc) (hr : x.rows.toNat ≤ s.params.nMax)
      (hc : x.cols.toNat ≤ s.params.nMax) : RegWrite s { s with shapes := s.shapes.set s.matSel x }
  | element (x : Half) (hsel : s.matSel ≠ .enc) (hr : s.matRow.toNat < s.params.nMax)
      (hc : s.matCol.toNat < s.params.nMax) :
      RegWrite s { s with
        el := Store.set s.el (elKey s.matSel s.matRow.toNat s.matCol.toNat) x, matCol := s.matCol + 1 }
  | idxCount (n : Half) (h : n.toNat ≤ s.params.nMax) : RegWrite s { s with idxCount := n }
  | index (x : Half) (h : s.idxPtr.toNat < s.params.nMax) :
      RegWrite s { s with idx := Store.set s.idx s.idxPtr.toNat x, idxPtr := s.idxPtr + 1 }
  | slotCount (n : Half) (h : n.toNat ≤ s.params.nMax) : RegWrite s { s with slotCount := n }
  | slotLen (n : Word) (hk : s.slotSel.toNat < s.params.nMax) (hn : n.toNat ≤ s.params.shardCap) :
      RegWrite s { s with slotLen := Store.set s.slotLen s.slotSel.toNat n }
  | slotPresent (b : Bool) (hk : s.slotSel.toNat < s.params.nMax) :
      RegWrite s { s with slotPresent := Store.set s.slotPresent s.slotSel.toNat b }
  | shard (x : Byte) (hk : s.shSlot.toNat < s.params.nMax) (ho : s.shOff.toNat < s.params.shardCap) :
      RegWrite s { s with sh := Store.set s.sh (shKey s.shSlot.toNat s.shOff.toNat) x, shOff := s.shOff + 1 }

theorem toNat_setWidth_le (v : Word) (k n : Nat) (h : v.toNat ≤ n) : (v.setWidth k).toNat ≤ n := by
  rw [BitVec.toNat_setWidth]
  exact (Nat.mod_le _ _).trans h

/-- Everything an accepted write can do. -/
theorem writeReg_cases {r : Reg} {v : Word} (h : writeReg r v s = some u) : RegWrite s u := by
  cases r
  case status => cases h; exact .status v
  case cmd => cases h; exact .issue v
  case matSel => obtain ⟨m, _, rfl⟩ := Option.map_eq_some_iff.1 h; exact .plain ..
  case matShape =>
    simp only [writeReg, writeMatShape, Option.ite_none_right_eq_some] at h
    obtain ⟨⟨hsel, hr, hc⟩, h⟩ := h
    cases h; exact .shape _ hsel hr hc
  case matData =>
    simp only [writeReg, writeMatData, Option.ite_none_right_eq_some] at h
    obtain ⟨⟨hsel, hr, hc⟩, h⟩ := h
    cases h; exact .element _ hsel hr hc
  case idxCount =>
    simp only [writeReg, Option.ite_none_right_eq_some] at h
    obtain ⟨hn, h⟩ := h
    cases h; exact .idxCount _ (toNat_setWidth_le v _ _ hn)
  case idxData =>
    simp only [writeReg, writeIdxData, Option.ite_none_right_eq_some] at h
    obtain ⟨hk, h⟩ := h
    cases h; exact .index _ hk
  case slotCount =>
    simp only [writeReg, Option.ite_none_right_eq_some] at h
    obtain ⟨hn, h⟩ := h
    cases h; exact .slotCount _ (toNat_setWidth_le v _ _ hn)
  case slotLen =>
    simp only [writeReg, writeSlotLen, Option.ite_none_right_eq_some] at h
    obtain ⟨⟨hk, hn⟩, h⟩ := h
    cases h; exact .slotLen _ hk hn
  case slotPresent =>
    simp only [writeReg, writeSlotPresent, Option.ite_none_right_eq_some] at h
    obtain ⟨hk, h⟩ := h
    cases h; exact .slotPresent _ hk
  case shData =>
    simp only [writeReg, writeShData, Option.ite_none_right_eq_some] at h
    obtain ⟨⟨hk, ho⟩, h⟩ := h
    cases h; exact .shard _ hk ho
  case id | capNmax | capShcap | engNdata | engNparity | gfR | tblData => cases h
  case intEn | cfgNdata | cfgNparity | argN | gfA | gfB | gfN | matRow | matCol | idxPtr | slotSel | shSlot | shOff |
      tblSel | tblIdx =>
    cases h; exact .plain ..

/-! ### Decoded commands are well formed -/

theorem MatReg.general_ofField : ∀ {x : BitVec 3}, x.toNat ≤ 3 → (MatReg.ofField x).general = true := by decide

theorem Opcode.wf_build {o : Opcode} {w : Width} {md ma mb : MatReg} (h : o.uses.md = true → md.general = true) :
    (o.build w md ma mb).wf = true := by
  cases o
  case matIdentity | matMul | matSub | matInv | matBuild => exact h rfl
  all_goals rfl

/-- The decoder answers no command with destination `M[ENC]` (30_encoding.md R134, R137 (d)). -/
theorem wf_of_decode {v : Word} {i : Instr} (h : decode v = .ok i) : i.wf = true := by
  unfold decode at h
  split at h
  · cases h
  · rename_i o _
    split_ifs at h with _ _ hd _
    cases h
    refine Opcode.wf_build fun hmd => MatReg.general_ofField ?_
    simpa [hmd] using hd

/-! ### Invariants of a step -/

/-- What a predicate has to survive to hold after every step: each thing that a turn can do to the state. -/
structure StepClosed (I : State → Prop) : Prop where
  agenda : ∀ {s} (l : List Turn), I s → I { s with agenda := l }
  busData : ∀ {s} (d : List Byte), I s → I { s with busData := d }
  reject : ∀ {s}, I s → I s.reject
  read : ∀ {s} (c p : Half) (o : Word) (x : Half) (d : Nat), I s →
    I { s with matCol := c, idxPtr := p, shOff := o, tblIdx := x, draws := d }
  write : ∀ {s u}, RegWrite s u → I s → I u
  effect : ∀ {s i u}, i.wf = true → Effect s i u → I s → I u
  clearVerify : ∀ {s}, I s → I (s.setVerifyOk false)
  finish : ∀ {s} (o : Option CmdError), I s → I (s.finish o)
  reset : ∀ {s}, I s → I s.resetStep

namespace StepClosed

variable {I : State → Prop} (h : StepClosed I)
include h

theorem after_busRead (off : BitVec 8) (hs : I s) : I (busRead off s).2 := by
  rcases busRead_cases off s with he | ⟨r, a, _, _, ha, he⟩
  · rw [he]; exact h.reject hs
  · obtain ⟨c, p, o, x, d, hx⟩ := readReg_state ha
    rw [he, hx]; exact h.read c p o x d hs

theorem after_busWrite (off : BitVec 8) (v : Word) (hs : I s) : I (busWrite off v s) := by
  rcases busWrite_cases off v s with he | ⟨r, u, _, _, hu, he⟩
  · rw [he]; exact h.reject hs
  · rw [he]; exact h.write (writeReg_cases hu) hs

theorem after_hostTurn {op : BusOp} (hs : I s) (ht : hostTurn op s = .next t) : I t := by
  rcases hostTurn_cases ht with ⟨off, v, d, rfl, rfl⟩ | ⟨off, v, rfl⟩ | ⟨d, rfl⟩
  · exact h.busData d (h.after_busRead off hs)
  · exact h.after_busWrite off v hs
  · exact h.busData d (h.reject hs)

theorem after_failBase (i : Instr) (hs : I s) : I (failBase i s) := by
  unfold failBase
  split
  · exact h.clearVerify hs
  · exact hs

theorem after_engineTurn (hs : I s) (ht : engineTurn s = .next t) : I t := by
  rcases engineTurn_cases ht with ⟨_, rfl⟩ | ⟨v, _, _, ⟨e, _, rfl⟩ | ⟨i, hi, hx⟩⟩
  · exact hs
  · exact h.finish _ hs
  · rcases exec_cases hx with ⟨u, hu, rfl⟩ | ⟨e, rfl⟩
    · exact h.finish _ (h.effect (wf_of_decode hi) hu hs)
    · exact h.finish _ (h.after_failBase i hs)

/-- A closed predicate holds after every step. -/
theorem after_step (hs : I s) (ht : step s = .next t) : I t := by
  rcases step_cases ht with ⟨_, ht⟩ | ⟨rest, ⟨_, ht⟩ | ⟨op, _, ht⟩ | ⟨_, rfl⟩⟩
  · exact h.after_engineTurn hs ht
  · exact h.after_engineTurn (h.agenda rest hs) ht
  · exact h.after_hostTurn (h.agenda rest hs) ht
  · exact h.reset (h.agenda rest hs)

end StepClosed

end Sys2Proof.Machine
end

section
/-! SUPPORT. Bounds: matrix results stay inside a bound that their operands respect, drawn and written lengths inside
`SHARD_CAP`, and the bytes of encode and reconstruct inside the shard set. -/

namespace Sys2Proof.Machine

variable {s : State}

/-! ### Matrix results -/

/-- Both dimensions of `A` are at most `n`. -/
def Mat.Fits (n : Nat) (A : Mat) : Prop := A.rows ≤ n ∧ A.cols ≤ n

/-- Both dimensions of every matrix register are at most `n`. -/
def State.ShapesFit (n : Nat) (s : State) : Prop :=
  ∀ m, (s.shapes.get m).rows.toNat ≤ n ∧ (s.shapes.get m).cols.toNat ≤ n

theorem State.shapesFit_half (s : State) : s.ShapesFit (2 ^ 16) := fun _ =>
  ⟨(BitVec.isLt _).le, (BitVec.isLt _).le⟩

variable {n : Nat} {A B R : Mat} {w : Width}

theorem State.ShapesFit.matVal (h : s.ShapesFit n) (w : Width) (k : Nat) (m : MatReg) : (s.matVal w k m).Fits n := h m

theorem State.ShapesFit.matRaw (h : s.ShapesFit n) (k : Nat) (m : MatReg) : (s.matRaw k m).Fits n := h m

theorem identity_fits {k : Nat} (h : k ≤ n) : (identity k).Fits n := ⟨h, h⟩

theorem matMul_fits (h : matMul w A B = .ok R) (hA : A.Fits n) (hB : B.Fits n) : R.Fits n := by
  obtain ⟨_, hr, hc, _⟩ := matMul_shape h
  exact ⟨hr.trans_le hA.1, hc.trans_le hB.2⟩

theorem submatrix_fits {ix : List Nat} (h : submatrix A ix = .ok R) (hix : ix.length ≤ n) (hA : A.Fits n) :
    R.Fits n := by
  obtain ⟨_, hr, hc, _⟩ := submatrix_shape h
  exact ⟨hr.trans_le hix, hc.trans_le hA.2⟩

theorem matInv_fits (h : matInv w A = .ok R) (hA : A.Fits n) : R.Fits n := by
  obtain ⟨_, hr, hc⟩ := matInv_shape h
  exact ⟨hr.trans_le hA.1, hc.trans_le hA.1⟩

@[simp] theorem State.length_idxList (s : State) : s.idxList.length = s.idxCount.toNat := by simp [State.idxList]

/-- Counts that pass the validation have a total within the field and `N_MAX` (43_encoding_matrix_builder.md R235). -/
theorem countCheck_eq_none_iff {nMax nd np : Nat} :
    countCheck w nMax nd np = none ↔ nd ≠ 0 ∧ nd + np ≤ fieldLimit w ∧ nd + np ≤ nMax := by
  unfold countCheck
  split_ifs <;> simp <;> omega

/-- A build that succeeds passed the validation and is the builder's answer. -/
theorem cfgBuild_cases (h : s.cfgBuild w = .ok R) :
    countCheck w s.params.nMax s.cfgNdata.toNat s.cfgNparity.toNat = none ∧
      build w s.cfgNdata.toNat s.cfgNparity.toNat = .ok R := by
  unfold State.cfgBuild at h
  split at h
  · cases h
  · exact ⟨by assumption, h⟩

theorem cfgBuild_fits (h : s.cfgBuild w = .ok R) (hn : s.params.nMax ≤ n) : R.Fits n := by
  obtain ⟨hc, hb⟩ := cfgBuild_cases h
  obtain ⟨_, _, hmax⟩ := countCheck_eq_none_iff.1 hc
  obtain ⟨hr, hcol⟩ := build_shape hb
  constructor <;> omega

/-! ### The shard set -/

/-- The checks that come first in every engine command pass (44_rs_engine.md R246, R247). -/
theorem engineCheck_eq_none_iff :
    s.engineCheck = none ↔ s.status.configured = true ∧ s.slotCount.toNat = s.nTotal := by
  unfold State.engineCheck
  split_ifs <;> simp_all

theorem engineCheck_of_setCheck (h : s.setCheck = none) : s.engineCheck = none := by
  unfold State.setCheck at h
  split at h
  · cases h
  · assumption

theorem engineCheck_of_recCheck (h : s.recCheck = none) : s.engineCheck = none := by
  unfold State.recCheck at h
  split at h
  · cases h
  · assumption

theorem symCount_mul_symBytes_le (s : State) (len : Nat) : s.symCount len * symBytes s.engWidth ≤ len :=
  Nat.div_mul_le_self _ _

/-- The bytes of encode lie in the parity shards, below the common length (44_rs_engine.md R260). -/
theorem mem_encodeCells {kv : Host.Cell} (h : kv ∈ s.encodeCells) :
    ∃ k < s.nTotal, ∃ o < s.setLen, kv.1 = shKey k o := by
  simp only [State.encodeCells, List.mem_flatMap, List.mem_range] at h
  obtain ⟨p, hp, h⟩ := h
  obtain ⟨o, ho, he⟩ := mem_shardCells h
  exact ⟨s.nData + p, Nat.add_lt_add_left hp _, o, ho.trans_le (symCount_mul_symBytes_le s _), he⟩

theorem lt_nTotal_of_mem_absentSet {k : Nat} (h : k ∈ s.absentSet) : k < s.nTotal :=
  List.mem_range.1 (List.mem_filter.1 h).1

/-- The bytes of reconstruct lie in the absent shards, below the common length (44_rs_engine.md R275, R280). -/
theorem mem_recoverCells {Dinv : Mat} {kv : Host.Cell} (h : kv ∈ s.recoverCells Dinv) :
    ∃ k < s.nTotal, ∃ o < s.recLen, kv.1 = shKey k o := by
  simp only [State.recoverCells, List.mem_flatMap] at h
  obtain ⟨k, hk, h⟩ := h
  obtain ⟨o, ho, he⟩ := mem_shardCells h
  exact ⟨k, lt_nTotal_of_mem_absentSet hk, o, ho.trans_le (symCount_mul_symBytes_le s _), he⟩

/-! ### Lengths -/

theorem Store.mem_of_get?_eq_some {α : Type} {m : Store α} {k : Nat} {v : α} (h : Store.get? m k = some v) :
    (k, v) ∈ m := by
  induction m with
  | nil => cases h
  | cons a m ih =>
    simp only [Store.get?] at h
    split at h
    · cases h; subst_vars; exact List.mem_cons_self
    · exact List.mem_cons_of_mem _ (ih h)

theorem toNat_ofNat_le (w a : Nat) {b : Nat} (h : a ≤ b) : (BitVec.ofNat w a).toNat ≤ b := by
  rw [BitVec.toNat_ofNat]
  exact (Nat.mod_le _ _).trans h

/-- A length that is read, written or drawn, is at most `SHARD_CAP` (10_state.md R54, log 4). -/
theorem ArrayInv.slotLenAt_le (h : ArrayInv s) (use : List Nat) (k : Nat) :
    (s.slotLenAt use k).toNat ≤ s.params.shardCap := by
  unfold State.slotLenAt
  cases hk : Store.get? s.slotLen k with
  | none => exact toNat_ofNat_le _ _ (Nat.le_of_lt_succ (Nat.mod_lt _ (Nat.succ_pos _)))
  | some v => exact (h.lenRange _ (Store.mem_of_get?_eq_some hk)).2

theorem ArrayInv.setLen_le (h : ArrayInv s) : s.setLen ≤ s.params.shardCap := h.slotLenAt_le _ _

theorem ArrayInv.recLen_le (h : ArrayInv s) : s.recLen ≤ s.params.shardCap := by
  unfold State.recLen
  split
  · exact Nat.zero_le _
  · exact h.slotLenAt_le _ _

theorem ArrayInv.nTotal_le (h : ArrayInv s) (hc : s.engineCheck = none) : s.nTotal ≤ s.params.nMax :=
  (engineCheck_eq_none_iff.1 hc).2 ▸ h.slotCount

end Sys2Proof.Machine
end

section
/-! PROOFS. The invariants of a run: arrays in range (10_state.md R46, R52, R54, R55), `STATUS` and `PEND` in step
(10_state.md R35, R63), and both after reset (10_state.md R65). -/

namespace Sys2Proof.Machine

variable {s t u : State}

/-! ### The array invariant, operation by operation -/

theorem Store.forall_mem_set {α : Type} {m : Store α} {k : Nat} {v : α} {P : Nat × α → Prop}
    (hm : ∀ kv ∈ m, P kv) (hv : P (k, v)) : ∀ kv ∈ Store.set m k v, P kv := by
  intro kv hkv
  rcases Store.mem_set _ _ _ _ hkv with rfl | hkv
  · exact hv
  · exact hm kv hkv

theorem Store.forall_mem_setAll {α : Type} {m : Store α} {l : List (Nat × α)} {P : Nat × α → Prop}
    (hm : ∀ kv ∈ m, P kv) (hl : ∀ kv ∈ l, P kv) : ∀ kv ∈ Store.setAll m l, P kv := fun kv hkv =>
  (Store.mem_setAll _ _ _ hkv).elim (hl kv) (hm kv)

/-- A shape within the capacity keeps all shapes within it. -/
theorem State.ShapesFit.set {n : Nat} (h : s.ShapesFit n) (md : MatReg) {x : Shape} (hr : x.rows.toNat ≤ n)
    (hc : x.cols.toNat ≤ n) (m : MatReg) :
    ((s.shapes.set md x).get m).rows.toNat ≤ n ∧ ((s.shapes.set md x).get m).cols.toNat ≤ n := by
  by_cases hm : m = md
  · rw [hm, Shapes.get_set_self]; exact ⟨hr, hc⟩
  · rw [Shapes.get_set_of_ne _ _ hm]; exact h m

theorem ArrayInv.resetOf (p : Params) : ArrayInv (State.resetOf p) where
  idxCount := Nat.zero_le _
  slotCount := Nat.zero_le _
  shapes m := by cases m <;> exact ⟨Nat.zero_le _, Nat.zero_le _⟩
  elWf := .nil
  idxWf := .nil
  lenWf := .nil
  presentWf := .nil
  shWf := .nil
  elRange _ h := nomatch h
  idxRange _ h := nomatch h
  lenRange _ h := nomatch h
  presentRange _ h := nomatch h
  shRange _ h := nomatch h

theorem ArrayInv.writeMat (h : ArrayInv s) (md : MatReg) {R : Mat} (hR : R.Fits s.params.nMax) :
    ArrayInv (s.writeMat md R) :=
  { h with
    shapes := State.ShapesFit.set h.shapes md (toNat_ofNat_le _ _ hR.1) (toNat_ofNat_le _ _ hR.2)
    elWf := Store.setAll_wf _ _ h.elWf
    elRange := Store.forall_mem_setAll h.elRange fun _ hkv => by
      obtain ⟨r, hr, c, hc, rfl⟩ := mem_matCells.1 hkv
      exact ⟨md, r, c, hr.trans_le hR.1, hc.trans_le hR.2, rfl⟩ }

theorem ArrayInv.setEngine (h : ArrayInv s) (w : Width) (a b : Half) : ArrayInv (s.setEngine w a b) := { h with }

theorem ArrayInv.writeShards (h : ArrayInv s) {l : List Host.Cell} {n len : Nat} (hn : n ≤ s.params.nMax)
    (hlen : len ≤ s.params.shardCap) (hl : ∀ kv ∈ l, ∃ k < n, ∃ o < len, kv.1 = shKey k o) :
    ArrayInv (s.writeShards l) :=
  { h with
    shWf := Memory.setAll_wf _ _ h.shWf
    shRange := Store.forall_mem_setAll h.shRange fun kv hkv => by
      obtain ⟨k, hk, o, ho, he⟩ := hl kv hkv
      exact ⟨k, o, hk.trans_le hn, ho.trans_le hlen, he⟩ }

theorem ArrayInv.markPresent (h : ArrayInv s) {l : List Nat} {len : Word} (hl : ∀ k ∈ l, k < s.params.nMax)
    (hlen : len.toNat ≤ s.params.shardCap) : ArrayInv (s.markPresent l len) :=
  { h with
    lenWf := Store.setAll_wf _ _ h.lenWf
    presentWf := Store.setAll_wf _ _ h.presentWf
    lenRange := Store.forall_mem_setAll h.lenRange <| List.forall_mem_map.2 fun k hk => ⟨hl k hk, hlen⟩
    presentRange := Store.forall_mem_setAll h.presentRange <| List.forall_mem_map.2 hl }

/-- What a successful command writes stays in range. -/
theorem Effect.keeps_arrays {i : Instr} (he : Effect s i u) (h : ArrayInv s) : ArrayInv u := by
  have hfit : s.ShapesFit s.params.nMax := h.shapes
  cases he with
  | nop => exact h
  | gf => exact { h with }
  | identity md hn => exact h.writeMat md (identity_fits hn)
  | mul w md ma mb R hR => exact h.writeMat md (matMul_fits hR (hfit.matVal w 0 ma) (hfit.matVal w 1 mb))
  | sub md ma R hR =>
    exact h.writeMat md (submatrix_fits hR (s.length_idxList.trans_le h.idxCount) (hfit.matRaw 0 ma))
  | inv w md ma R hR => exact h.writeMat md (matInv_fits hR (hfit.matVal w 0 ma))
  | build w md E hE => exact h.writeMat md (cfgBuild_fits hE le_rfl)
  | construct w E hE => exact (h.writeMat .enc (cfgBuild_fits hE le_rfl)).setEngine w _ _
  | encode hc =>
    exact h.writeShards (h.nTotal_le (engineCheck_of_setCheck hc)) h.setLen_le fun _ => mem_encodeCells
  | verify => exact { h with }
  | intact => exact h
  | reconstruct hc _ Dinv _ =>
    have hn := h.nTotal_le (engineCheck_of_recCheck hc)
    exact (h.writeShards hn h.recLen_le fun _ => mem_recoverCells).markPresent
      (fun _ hk => (lt_nTotal_of_mem_absentSet hk).trans_le hn) (toNat_ofNat_le _ _ h.recLen_le)

/-- What an accepted register write stores stays in range. -/
theorem RegWrite.keeps_arrays (hw : RegWrite s u) (h : ArrayInv s) : ArrayInv u := by
  cases hw with
  | status => exact { h with }
  | issue => exact { h with }
  | plain => exact { h with }
  | shape x _ hr hc => exact { h with shapes := State.ShapesFit.set h.shapes _ hr hc }
  | element x _ hr hc =>
    exact { h with
      elWf := Store.set_wf _ _ _ h.elWf
      elRange := Store.forall_mem_set h.elRange ⟨_, _, _, hr, hc, rfl⟩ }
  | idxCount n hn => exact { h with idxCount := hn }
  | index x hk =>
    exact { h with
      idxWf := Store.set_wf _ _ _ h.idxWf
      idxRange := Store.forall_mem_set h.idxRange hk }
  | slotCount n hn => exact { h with slotCount := hn }
  | slotLen n hk hn =>
    exact { h with
      lenWf := Store.set_wf _ _ _ h.lenWf
      lenRange := Store.forall_mem_set h.lenRange ⟨hk, hn⟩ }
  | slotPresent b hk =>
    exact { h with
      presentWf := Store.set_wf _ _ _ h.presentWf
      presentRange := Store.forall_mem_set h.presentRange hk }
  | shard x hk ho =>
    exact { h with
      shWf := Memory.set_wf _ _ _ h.shWf
      shRange := Store.forall_mem_set h.shRange ⟨_, _, hk, ho, rfl⟩ }

theorem arrayInv_stepClosed : StepClosed ArrayInv where
  agenda _ h := { h with }
  busData _ h := { h with }
  reject h := { h with }
  read _ _ _ _ _ h := { h with }
  write := RegWrite.keeps_arrays
  effect _ := Effect.keeps_arrays
  clearVerify h := { h with }
  finish _ h := { h with }
  reset _ := { ArrayInv.resetOf _ with }

/-- Settles O40: the array invariant survives every operation of a turn. -/
theorem stepKeepsArraysInRange : Obligations.StepKeepsArraysInRange :=
  fun _ _ _ h ht => arrayInv_stepClosed.after_step h ht

/-! ### The control invariant -/

theorem outcomeCode_le (o : Option CmdError) : (outcomeCode o).toNat ≤ 11 := by
  cases o with
  | none => decide
  | some e => cases e <;> decide

/-- An outcome has an error exactly when its code is not 0 (60_exceptions.md R291). -/
theorem isSome_iff_outcomeCode_ne_zero (o : Option CmdError) : o.isSome = true ↔ outcomeCode o ≠ 0 := by
  cases o with
  | none => decide
  | some e => cases e <;> decide

theorem ControlInv.resetOf {p : Params} (hp : p.wf = true) : ControlInv (State.resetOf p) where
  params := hp
  pend := rfl
  running h := nomatch h
  err := ⟨nofun, fun h => absurd rfl h⟩
  code := Nat.zero_le _

theorem ControlInv.issue (h : ControlInv s) (v : Word) : ControlInv (s.issue v) where
  params := h.params
  pend := rfl
  running _ := ⟨rfl, rfl, rfl⟩
  err := by simp
  code := Nat.zero_le _

theorem ControlInv.clearedBy (h : ControlInv s) (v : Word) :
    ControlInv { s with status := s.status.clearedBy v } :=
  { h with
    running := fun hb => by
      obtain ⟨hd, he, hc⟩ := h.running hb
      exact ⟨by simp [hd], he, hc⟩ }

/-- A completion needs nothing of the state but its parameters. -/
theorem controlInv_finish (hp : s.params.wf = true) (o : Option CmdError) : ControlInv (s.finish o) where
  params := hp
  pend := rfl
  running h := nomatch h
  err := isSome_iff_outcomeCode_ne_zero o
  code := outcomeCode_le o

theorem RegWrite.keeps_control (hw : RegWrite s u) (h : ControlInv s) : ControlInv u := by
  cases hw with
  | status v => exact h.clearedBy v
  | issue v => exact h.issue v
  | plain | shape | element | idxCount | index | slotCount | slotLen | slotPresent | shard => exact { h with }

theorem Effect.keeps_control {i : Instr} (he : Effect s i u) (h : ControlInv s) : ControlInv u := by
  cases he with
  | nop | intact => exact h
  | construct | verify => exact { h with }
  | gf | identity | mul | sub | inv | build | encode | reconstruct => exact { h with }

theorem controlInv_stepClosed : StepClosed ControlInv where
  agenda _ h := { h with }
  busData _ h := { h with }
  reject h := { h with }
  read _ _ _ _ _ h := { h with }
  write := RegWrite.keeps_control
  effect _ := Effect.keeps_control
  clearVerify h := { h with }
  finish o h := controlInv_finish h.params o
  reset h := { ControlInv.resetOf h.params with }

/-- Settles O39: the control invariant survives every operation of a turn. -/
theorem stepKeepsControlInvariant : Obligations.StepKeepsControlInvariant :=
  fun _ _ h ht => controlInv_stepClosed.after_step h ht

/-! ### After reset -/

theorem EngineInv.resetOf (p : Params) : EngineInv (State.resetOf p) where
  built h := nomatch h
  absent _ := ⟨rfl, rfl, rfl, rfl⟩

/-- Settles O38, part by part. -/
theorem resetSatisfiesInvariant : Obligations.ResetSatisfiesInvariant :=
  fun p hp => ⟨.resetOf hp, .resetOf p, .resetOf p⟩

theorem Status.word_reset : Status.reset.word = 0 := by decide

theorem shapeWord_zero : shapeWord ⟨0, 0⟩ = 0 := by decide

theorem Shapes.get_reset (m : MatReg) : Shapes.reset.get m = ⟨0, 0⟩ := by cases m <;> rfl

/-- After a reset step every register but the constants and the windows reads 0 (10_state.md R65). -/
theorem readReg_resetStep (s : State) (r : Reg) (hid : r ≠ .id) (hn : r ≠ .capNmax) (hc : r ≠ .capShcap)
    (hm : r ≠ .matData) (hi : r ≠ .idxData) (hl : r ≠ .slotLen) (hp : r ≠ .slotPresent) (hs : r ≠ .shData)
    (ht : r ≠ .tblData) : readReg r s.resetStep = some (0, s.resetStep) := by
  cases r
  case id | capNmax | capShcap | matData | idxData | slotLen | slotPresent | shData | tblData => contradiction
  case status => exact congrArg (fun x => some (x, s.resetStep)) Status.word_reset
  case matShape => exact congrArg (fun x => some (x, s.resetStep)) shapeWord_zero
  all_goals rfl

/-- Settles O45: the step is the reset step, whatever was pending. -/
theorem resetStepClearsEverything : Obligations.ResetStepClearsEverything := by
  intro s rest ha
  refine ⟨State.resetStep { s with agenda := rest }, by simp [step, ha, takeTurn],
    Status.word_reset, rfl, rfl, rfl, ?_, Shapes.get_reset, fun _ _ _ => rfl, fun _ => rfl,
    fun _ => ⟨rfl, rfl⟩, fun _ _ => rfl⟩
  intro r hid hn hc hm hi hl hp hs ht
  exact ⟨_, readReg_resetStep _ r hid hn hc hm hi hl hp hs ht⟩

end Sys2Proof.Machine
end

section
/-! PROOFS. Who changes the engine's counts, width and matrix (10_state.md R40, 44_rs_engine.md R254). -/

namespace Sys2Proof.Machine

variable {s t u : State}

namespace SameInstance

protected theorem refl (s : State) : SameInstance s s := ⟨rfl, rfl, rfl, rfl, rfl, fun _ _ _ _ => rfl⟩

/-- A write to the state that leaves the engine's fields alone. -/
theorem of_eq (hstatus : t.status.configured = s.status.configured ∧ t.status.engW16 = s.status.engW16)
    (hnd : t.engNdata = s.engNdata) (hnp : t.engNparity = s.engNparity) (hsh : t.shapes = s.shapes)
    (hel : t.el = s.el) : SameInstance s t :=
  ⟨hstatus.1, hstatus.2, hnd, hnp, by rw [hsh], fun r c _ _ => by simp [State.elem?, hel]⟩

end SameInstance

theorem Shapes.enc_set (x : Shapes) {m : MatReg} (y : Shape) (h : m ≠ .enc) : (x.set m y).enc = x.enc :=
  Shapes.get_set_of_ne x y h.symm

/-- A matrix result in a general register leaves `M[ENC]` alone. -/
theorem sameInstance_writeMat {md : MatReg} {R : Mat} (hmd : md.general = true) (hR : R.Fits (2 ^ 16)) :
    SameInstance s (s.writeMat md R) := by
  have hne : md ≠ .enc := by rintro rfl; cases hmd
  exact ⟨rfl, rfl, rfl, rfl, Shapes.enc_set _ _ hne, fun r c hr hc =>
    get?_matCells_outside s.el md .enc R hR.1 hR.2 hr hc (.inl hne.symm)⟩

/-- Every command that has an encoding, but RS_CONSTRUCT, leaves the engine as it is. -/
theorem Effect.sameInstance {i : Instr} (he : Effect s i u) (hn : s.params.nMax ≤ 2 ^ 16) (hi : i.wf = true)
    (hc : ∀ w, i ≠ .rsConstruct w) : SameInstance s u := by
  have hfit := s.shapesFit_half
  cases he with
  | nop | intact => exact .refl s
  | gf | encode | verify | reconstruct => exact .of_eq ⟨rfl, rfl⟩ rfl rfl rfl rfl
  | identity md h => exact sameInstance_writeMat hi (identity_fits (h.trans hn))
  | mul w md ma mb R hR => exact sameInstance_writeMat hi (matMul_fits hR (hfit.matVal w 0 ma) (hfit.matVal w 1 mb))
  | sub md ma R hR =>
    exact sameInstance_writeMat hi (submatrix_fits hR (s.length_idxList.trans_le (BitVec.isLt _).le) (hfit.matRaw 0 ma))
  | inv w md ma R hR => exact sameInstance_writeMat hi (matInv_fits hR (hfit.matVal w 0 ma))
  | build w md E hE => exact sameInstance_writeMat hi (cfgBuild_fits hE hn)
  | construct w E hE => exact absurd rfl (hc w)

/-- No register write reaches the engine (10_state.md R40, R49; 20_memory.md R99). -/
theorem RegWrite.sameInstance (hw : RegWrite s u) (hn : s.params.nMax ≤ 2 ^ 16) : SameInstance s u := by
  cases hw with
  | status | issue | plain | idxCount | index | slotCount | slotLen | slotPresent | shard =>
    exact .of_eq ⟨rfl, rfl⟩ rfl rfl rfl rfl
  | shape x hsel => exact ⟨rfl, rfl, rfl, rfl, Shapes.enc_set _ _ hsel, fun _ _ _ _ => rfl⟩
  | element x hsel hr hc =>
    refine ⟨rfl, rfl, rfl, rfl, rfl, fun r c hr' hc' => Store.get?_set_of_ne _ _ _ _ fun he => hsel ?_⟩
    exact (elKey_injective hr' hc' (hr.trans_le hn) (hc.trans_le hn) he).1.symm

theorem busRead_sameInstance (off : BitVec 8) (s : State) : SameInstance s (busRead off s).2 := by
  rcases busRead_cases off s with he | ⟨r, a, _, _, ha, he⟩
  · rw [he]; exact .of_eq ⟨rfl, rfl⟩ rfl rfl rfl rfl
  · obtain ⟨c, p, o, x, d, hx⟩ := readReg_state ha
    rw [he, hx]; exact .of_eq ⟨rfl, rfl⟩ rfl rfl rfl rfl

theorem busWrite_sameInstance (off : BitVec 8) (v : Word) (hn : s.params.nMax ≤ 2 ^ 16) :
    SameInstance s (busWrite off v s) := by
  rcases busWrite_cases off v s with he | ⟨r, u, _, _, hu, he⟩
  · rw [he]; exact .of_eq ⟨rfl, rfl⟩ rfl rfl rfl rfl
  · rw [he]; exact (writeReg_cases hu).sameInstance hn

/-- No host turn reaches the engine. -/
theorem hostTurn_sameInstance {op : BusOp} (hn : s.params.nMax ≤ 2 ^ 16) (ht : hostTurn op s = .next t) :
    SameInstance s t := by
  rcases hostTurn_cases ht with ⟨off, v, d, rfl, rfl⟩ | ⟨off, v, rfl⟩ | ⟨d, rfl⟩
  · exact busRead_sameInstance off s
  · exact busWrite_sameInstance off v hn
  · exact .of_eq ⟨rfl, rfl⟩ rfl rfl rfl rfl

/-- A command that fails leaves the engine as it is. -/
theorem failBase_sameInstance (i : Instr) (s : State) (o : Option CmdError) :
    SameInstance s ((failBase i s).finish o) := by
  unfold failBase
  split <;> exact .of_eq ⟨rfl, rfl⟩ rfl rfl rfl rfl

/-- An engine turn leaves the engine as it is, unless it completes RS_CONSTRUCT successfully. -/
theorem engineTurn_sameInstance (hn : s.params.nMax ≤ 2 ^ 16) (ht : engineTurn s = .next t) :
    SameInstance s t ∨ ∃ v w, s.status.busy = true ∧ s.pend = some v ∧ decode v = .ok (.rsConstruct w) ∧
      t.status.busy = false ∧ t.status.err = false := by
  rcases engineTurn_cases ht with ⟨_, rfl⟩ | ⟨v, hb, hv, ⟨e, _, rfl⟩ | ⟨i, hi, hx⟩⟩
  · exact .inl (.refl t)
  · exact .inl (.of_eq ⟨rfl, rfl⟩ rfl rfl rfl rfl)
  · rcases exec_cases hx with ⟨u, hu, rfl⟩ | ⟨e, rfl⟩
    · by_cases hc : ∃ w, i = .rsConstruct w
      · obtain ⟨w, rfl⟩ := hc
        exact .inr ⟨v, w, hb, hv, hi, rfl, rfl⟩
      · exact .inl (hu.sameInstance hn (wf_of_decode hi) fun w hw => hc ⟨w, hw⟩)
    · exact .inl (failBase_sameInstance i s _)

theorem nMax_le_of_wf {p : Params} (h : p.wf = true) : p.nMax ≤ 2 ^ 16 := by
  simp only [Params.wf, Bool.and_eq_true, decide_eq_true_eq] at h
  omega

/-- Settles O42, agent by agent. -/
theorem instanceChangesOnlyByConstructOrReset : Obligations.InstanceChangesOnlyByConstructOrReset := by
  intro s t hp ht
  have hn := nMax_le_of_wf hp
  rcases step_cases ht with ⟨ha, ht⟩ | ⟨rest, ⟨ha, ht⟩ | ⟨op, _, ht⟩ | ⟨ha, _⟩⟩
  · exact (engineTurn_sameInstance hn ht).imp_right fun ⟨v, w, h⟩ => .inr ⟨v, w, .inl ha, h⟩
  · exact (engineTurn_sameInstance (s := { s with agenda := rest }) hn ht).imp_right fun ⟨v, w, h⟩ =>
      .inr ⟨v, w, .inr ⟨rest, ha⟩, h⟩
  · exact .inl (hostTurn_sameInstance (s := { s with agenda := rest }) hn ht)
  · exact .inr (.inl ⟨rest, ha⟩)

end Sys2Proof.Machine
end

section
/-! PROOFS. The registers at the bus: reserved offsets (10_state.md R61), read-only, plain and range-checked registers
(10_state.md R62), and `STATUS` (10_state.md R35, R36). -/

namespace Sys2Proof.Machine

/-! ### Reserved offsets -/

/-- The offsets that 10_state.md R61 lists are no register's. -/
theorem regAt_of_reserved {off : BitVec 8}
    (h : off ∈ [0x2C, 0x54, 0x58, 0x5C, 0x6C, 0x8C] ∨ (0x9C ≤ off.toNat ∧ off.toNat ≤ 0xFC)) : regAt off = none := by
  refine regAt_eq_none_iff.2 fun r hr => ?_
  subst hr
  rcases h with h | ⟨h, _⟩
  · exact regOffset_notMem_gaps r h
  · have := regOffset_le r
    omega

/-- Settles O46: no register is found there. -/
theorem reservedOffsetsRejected : Obligations.ReservedOffsetsRejected := fun _ v s h =>
  ⟨busRead_reserved s (regAt_of_reserved h), busWrite_reserved v s (regAt_of_reserved h)⟩

/-! ### Read-only registers -/

/-- Settles O54: `writeReg` refuses them all, and a read that the busy lock passes returns the field. -/
theorem readOnlyRegisters : Obligations.ReadOnlyRegisters := by
  intro v s
  simp only [BitVec.ofNat_toNat]
  refine ⟨?_, busRead_accepted (r := .id) (lockedOut_of_open s rfl) rfl,
    busRead_accepted (r := .capNmax) (lockedOut_of_open s rfl) rfl,
    busRead_accepted (r := .capShcap) (lockedOut_of_open s rfl) rfl, fun hb =>
    ⟨busRead_accepted (r := .engNdata) (lockedOut_of_idle hb) rfl,
      busRead_accepted (r := .engNparity) (lockedOut_of_idle hb) rfl,
      busRead_accepted (r := .gfR) (lockedOut_of_idle hb) rfl, busRead_accepted (r := .cmd) (lockedOut_of_idle hb) rfl⟩⟩
  simp only [List.forall_mem_cons]
  exact ⟨busWrite_refused (r := .id) rfl, busWrite_refused (r := .capNmax) rfl, busWrite_refused (r := .capShcap) rfl,
    busWrite_refused (r := .engNdata) rfl, busWrite_refused (r := .engNparity) rfl, busWrite_refused (r := .gfR) rfl,
    busWrite_refused (r := .tblData) rfl, List.forall_mem_nil _⟩

/-! ### Plain registers -/

/-- An idle block passes both accesses of a register on to `writeReg` and `readReg`. -/
theorem idle_accesses (r : Reg) {s u : State} {v : Word} {a : Word × State} (hb : s.status.busy = false)
    (hw : writeReg r v s = some u) (hr : readReg r s = some a) :
    busWrite (regOffset r) v s = u ∧ busRead (regOffset r) s = a :=
  ⟨busWrite_accepted (lockedOut_of_idle hb) hw, busRead_accepted (lockedOut_of_idle hb) hr⟩

/-- Settles O52, register by register. -/
theorem plainRegistersStoreLowBits : Obligations.PlainRegistersStoreLowBits := by
  intro v s
  simp only [BitVec.ofNat_toNat, BitVec.setWidth_eq]
  refine ⟨⟨busWrite_accepted (r := .intEn) (lockedOut_of_open s rfl) rfl,
    busRead_accepted (r := .intEn) (lockedOut_of_open s rfl) rfl⟩, fun hb => ?_⟩
  exact ⟨idle_accesses .cfgNdata hb rfl rfl, idle_accesses .cfgNparity hb rfl rfl, idle_accesses .argN hb rfl rfl,
    idle_accesses .gfA hb rfl rfl, idle_accesses .gfB hb rfl rfl, idle_accesses .gfN hb rfl rfl,
    idle_accesses .matRow hb rfl rfl, idle_accesses .matCol hb rfl rfl, idle_accesses .idxPtr hb rfl rfl,
    idle_accesses .slotSel hb rfl rfl, idle_accesses .shSlot hb rfl rfl, idle_accesses .shOff hb rfl rfl,
    idle_accesses .tblSel hb rfl rfl, idle_accesses .tblIdx hb rfl rfl⟩

/-! ### Range-checked registers -/

theorem matRegOfNat_eq_none : ∀ {n : Nat}, 4 < n → matRegOfNat n = none
  | _ + 5, _ => rfl

theorem exists_matRegOfNat {n : Nat} (h : n ≤ 4) : ∃ m : MatReg, m.num = n ∧ matRegOfNat n = some m := by
  interval_cases n
  · exact ⟨.m0, rfl, rfl⟩
  · exact ⟨.m1, rfl, rfl⟩
  · exact ⟨.m2, rfl, rfl⟩
  · exact ⟨.m3, rfl, rfl⟩
  · exact ⟨.enc, rfl, rfl⟩

theorem highHalf_eq (v : Word) : v.extractLsb' 16 16 = BitVec.ofNat 16 (v.toNat / 2 ^ 16) := by
  apply BitVec.eq_of_toNat_eq
  simp [BitVec.extractLsb'_toNat, Nat.shiftRight_eq_div_pow]

theorem lowHalf_eq (v : Word) : v.extractLsb' 0 16 = BitVec.ofNat 16 (v.toNat % 2 ^ 16) := by
  apply BitVec.eq_of_toNat_eq
  simp [BitVec.extractLsb'_toNat]

theorem toNat_highHalf (v : Word) : (v.extractLsb' 16 16).toNat = v.toNat / 2 ^ 16 := by
  have := v.isLt
  rw [highHalf_eq, BitVec.toNat_ofNat, Nat.mod_eq_of_lt (by omega)]

theorem toNat_lowHalf (v : Word) : (v.extractLsb' 0 16).toNat = v.toNat % 2 ^ 16 := by
  rw [lowHalf_eq, BitVec.toNat_ofNat, Nat.mod_mod]

/-- A write of `MAT_SHAPE`, in numbers (10_state.md R49). -/
theorem writeMatShape_eq (v : Word) (s : State) :
    writeMatShape v s =
      if s.matSel ≠ .enc ∧ v.toNat / 2 ^ 16 ≤ s.params.nMax ∧ v.toNat % 2 ^ 16 ≤ s.params.nMax then
        some { s with shapes :=
          s.shapes.set s.matSel ⟨BitVec.ofNat 16 (v.toNat / 2 ^ 16), BitVec.ofNat 16 (v.toNat % 2 ^ 16)⟩ }
      else none := by
  rw [writeMatShape, toNat_highHalf, toNat_lowHalf, highHalf_eq, lowHalf_eq]

theorem shapeWord_eq (x : Shape) : shapeWord x = BitVec.ofNat 32 (x.rows.toNat * 2 ^ 16 + x.cols.toNat) := by
  have hr := x.rows.isLt
  have hc := x.cols.isLt
  apply BitVec.eq_of_toNat_eq
  rw [shapeWord, BitVec.toNat_or, BitVec.toNat_shiftLeft, BitVec.toNat_setWidth, BitVec.toNat_setWidth,
    BitVec.toNat_ofNat, Nat.shiftLeft_eq, Nat.mod_eq_of_lt (by omega : x.rows.toNat < 2 ^ 32),
    Nat.mod_eq_of_lt (by omega : x.cols.toNat < 2 ^ 32), Nat.mod_eq_of_lt (by omega), Nat.mod_eq_of_lt (by omega),
    Nat.mul_comm, Nat.two_pow_add_eq_or_of_lt hc]

/-- Settles O53, register by register. -/
theorem rangeCheckedRegisters : Obligations.RangeCheckedRegisters := by
  intro v s hb _
  have hl : ∀ w r, lockedOut w r s = false := fun _ _ => lockedOut_of_idle hb
  refine ⟨fun h => ?_, fun h => ?_, fun h => ?_, fun hsel hr hc => ?_, fun h => ⟨?_, ?_⟩, fun h => ⟨?_, ?_⟩,
    fun h => ?_, busRead_accepted (r := .matSel) (hl _ _) rfl, ?_, ?_, ?_⟩
  · exact busWrite_refused (r := .matSel) (by simp [writeReg, matRegOfNat_eq_none h])
  · obtain ⟨m, hm, he⟩ := exists_matRegOfNat h
    exact ⟨m, hm, busWrite_accepted (r := .matSel) (hl _ _) (by simp [writeReg, he])⟩
  · refine busWrite_refused (r := .matShape) ((writeMatShape_eq v s).trans (if_neg ?_))
    rintro ⟨hsel, hr, hc⟩
    rcases h with h | h | h
    · exact hsel h
    · exact h.not_ge hr
    · exact h.not_ge hc
  · exact busWrite_accepted (r := .matShape) (hl _ _) ((writeMatShape_eq v s).trans (if_pos ⟨hsel, hr, hc⟩))
  · exact busWrite_refused (r := .idxCount) (if_neg h.not_ge)
  · exact busWrite_refused (r := .slotCount) (if_neg h.not_ge)
  · rw [BitVec.ofNat_toNat]
    exact busWrite_accepted (r := .idxCount) (hl _ _) (if_pos h)
  · rw [BitVec.ofNat_toNat]
    exact busWrite_accepted (r := .slotCount) (hl _ _) (if_pos h)
  · refine busWrite_refused (r := .slotLen) (if_neg ?_)
    rintro ⟨hk, hn⟩
    exact h.elim hk.not_ge hn.not_gt
  · rw [← shapeWord_eq]
    exact busRead_accepted (r := .matShape) (hl _ _) rfl
  · rw [BitVec.ofNat_toNat]
    exact busRead_accepted (r := .idxCount) (hl _ _) rfl
  · rw [BitVec.ofNat_toNat]
    exact busRead_accepted (r := .slotCount) (hl _ _) rfl

/-! ### STATUS -/

/-- Settles O50: the write is `Status.clearedBy`, by the value of each of the two bits. -/
theorem statusWriteClearsByOne : Obligations.StatusWriteClearsByOne := by
  intro v s
  refine busWrite_accepted (r := .status) (lockedOut_of_open s rfl) ?_
  simp only [writeReg, Status.clearedBy]
  cases v.getLsbD 1 <;> cases v.getLsbD 6 <;> simp

theorem getLsbD_bitAt (b : Bool) (k j : Nat) : (bitAt b k).getLsbD j = (decide (j < 32) && decide (j = k) && b) := by
  rcases lt_trichotomy j k with h | rfl | h
  · simp [bitAt, h, h.ne]
  · simp [bitAt]
  · have : j - k ≠ 0 := by omega
    simp [bitAt, h.ne', this]

/-- Each bit of the word of `STATUS`. -/
theorem getLsbD_word (x : Status) (j : Nat) (hj : j < 32) :
    x.word.getLsbD j =
      (decide (j = 0) && x.busy || decide (j = 1) && x.done || decide (j = 2) && x.err || decide (j = 3) && x.verifyOk ||
        decide (j = 4) && x.configured || decide (j = 5) && x.engW16 || decide (j = 6) && x.accErr ||
        !decide (j < 8) && x.errCode.getLsbD (j - 8)) := by
  have hk : j - 8 < 32 := by omega
  simp only [Status.word, BitVec.getLsbD_or, BitVec.getLsbD_shiftLeft, BitVec.getLsbD_setWidth, getLsbD_bitAt, hj, hk,
    decide_true, Bool.true_and]

theorem Status.extract_errCode (x : Status) : x.word.extractLsb' 8 4 = x.errCode := by
  refine BitVec.eq_of_getLsbD_eq fun j hj => ?_
  have hne : ∀ m < 8, 8 + j ≠ m := by omega
  rw [BitVec.getLsbD_extractLsb', getLsbD_word x (8 + j) (by omega)]
  simp [hj, hne]

/-- Bits 31:12 of `STATUS` read 0 (10_state.md R35). -/
theorem Status.getLsbD_word_high (x : Status) {k : Nat} (hk : 12 ≤ k) : x.word.getLsbD k = false := by
  rcases Nat.lt_or_ge k 32 with h | h
  · have hne : ∀ m < 12, k ≠ m := by omega
    rw [getLsbD_word x k h, BitVec.getLsbD_of_ge x.errCode _ (by omega : 4 ≤ k - 8)]
    simp [hne]
  · exact BitVec.getLsbD_of_ge _ _ h

/-- Settles O51, bit by bit. -/
theorem statusReadLayout : Obligations.StatusReadLayout := by
  intro s
  have bit := getLsbD_word s.status
  refine ⟨s.status.word, busRead_accepted (r := .status) (lockedOut_of_open s rfl) rfl, (bit 0 (by decide)).trans ?_,
    (bit 1 (by decide)).trans ?_, (bit 2 (by decide)).trans ?_, (bit 3 (by decide)).trans ?_,
    (bit 4 (by decide)).trans ?_, (bit 5 (by decide)).trans ?_, (bit 6 (by decide)).trans ?_,
    (bit 7 (by decide)).trans ?_, s.status.extract_errCode, fun _ => s.status.getLsbD_word_high⟩
  all_goals simp

end Sys2Proof.Machine
end

section
/-! SUPPORT. The accesses that a block rejects, the write sets of the commands, the offset of an aligned address with
the byte lanes there, and what the windows answer. -/

namespace Sys2Proof.Machine

variable {s t u : State}

/-! ### Accesses that fail -/

theorem regAt_eq_some_iff {off : BitVec 8} {r : Reg} : regAt off = some r ↔ regOffset r = off := by
  refine ⟨fun h => ?_, fun h => h ▸ regAt_regOffset r⟩
  simpa using List.find?_some h

/-- What a register refuses to read is rejected, whether or not the busy lock lets the access through. -/
theorem busRead_refused {r : Reg} (h : readReg r s = none) : busRead (regOffset r) s = (0, s.reject) := by
  simp [busRead, regAt_regOffset, h]

/-- While busy, an access that is not of the list of 20_memory.md R97 is rejected. -/
theorem lockedOut_of_busy {w : Bool} {r : Reg} (hb : s.status.busy = true) :
    lockedOut w r s = false ↔ openWhileBusy w r = true := by
  simp [lockedOut, hb]

/-- The offsets that can be read while busy (20_memory.md R97). -/
theorem openWhileBusy_read_iff (r : Reg) :
    openWhileBusy false r = true ↔ regOffset r ∈ [0x00, 0x04, 0x08, 0x0C, 0x14] := by
  cases r <;> decide

/-- The offsets that can be written while busy (20_memory.md R97). -/
theorem openWhileBusy_write_iff (r : Reg) : openWhileBusy true r = true ↔ regOffset r ∈ [0x0C, 0x14] := by
  cases r <;> decide

/-! ### Write sets of the commands -/

/-- No command but RS_RECONSTRUCT writes a slot descriptor (20_memory.md R108). -/
theorem Effect.keeps_descriptors {i : Instr} (he : Effect s i u) (hi : i ≠ .rsReconstruct) :
    u.slotLen = s.slotLen ∧ u.slotPresent = s.slotPresent := by
  cases he with
  | intact | reconstruct => exact absurd rfl hi
  | nop | gf | identity | mul | sub | inv | build | construct | encode | verify => exact ⟨rfl, rfl⟩

/-- No command but RS_ENCODE and RS_RECONSTRUCT writes shard memory (20_memory.md R108). -/
theorem Effect.keeps_shards {i : Instr} (he : Effect s i u) (hr : i ≠ .rsReconstruct) (hi : i ≠ .rsEncode) :
    u.sh = s.sh := by
  cases he with
  | encode => exact absurd rfl hi
  | intact | reconstruct => exact absurd rfl hr
  | nop | gf | identity | mul | sub | inv | build | construct | verify => rfl

/-- A command that fails writes neither shard memory nor a descriptor (40_command_lifecycle.md R154). -/
theorem failBase_memory (i : Instr) (s : State) :
    (failBase i s).slotLen = s.slotLen ∧ (failBase i s).slotPresent = s.slotPresent ∧ (failBase i s).sh = s.sh := by
  unfold failBase
  split <;> exact ⟨rfl, rfl, rfl⟩

/-- What the completion of the pending word `v` leaves of shard memory and the descriptors. -/
theorem engineTurn_write_sets {v : Word} (hb : s.status.busy = true) (hv : s.pend = some v)
    (ht : engineTurn s = .next t) :
    (decode v ≠ .ok .rsReconstruct → t.slotLen = s.slotLen ∧ t.slotPresent = s.slotPresent) ∧
      (decode v ≠ .ok .rsReconstruct → decode v ≠ .ok .rsEncode → t.sh = s.sh) := by
  rcases engineTurn_cases ht with ⟨hi, _⟩ | ⟨v', _, hv', ht⟩
  · exact absurd (hb.symm.trans hi) (by decide)
  · obtain rfl : v = v' := Option.some.inj (hv.symm.trans hv')
    rcases ht with ⟨e, _, rfl⟩ | ⟨i, hi, hx⟩
    · exact ⟨fun _ => ⟨rfl, rfl⟩, fun _ _ => rfl⟩
    · have ne {j : Instr} (h : decode v ≠ .ok j) : i ≠ j := fun hij => h (hij ▸ hi)
      rcases exec_cases hx with ⟨u, hu, rfl⟩ | ⟨e, rfl⟩
      · exact ⟨fun hr => hu.keeps_descriptors (ne hr), fun hr he => hu.keeps_shards (ne hr) (ne he)⟩
      · obtain ⟨hlen, hpresent, hsh⟩ := failBase_memory i s
        exact ⟨fun _ => ⟨hlen, hpresent⟩, fun _ _ => hsh⟩

/-! ### Addresses and byte lanes -/

theorem base_mod_of_wf {p : Params} (h : p.wf = true) : p.base % 256 = 0 := by
  simp only [Params.wf, Bool.and_eq_true, beq_iff_eq] at h
  exact h.2

/-- The offset of an address of the block is its distance from `BASE`, which is aligned to the block
(20_memory.md R109). -/
theorem blockOffset_of_inside {p : Params} {addr : Nat} (hp : p.wf = true) (hlo : p.base ≤ addr)
    (hhi : addr < p.base + 256) : blockOffset p addr = some (BitVec.ofNat 8 (addr - p.base)) := by
  have hbase := base_mod_of_wf hp
  rw [blockOffset, if_pos ⟨hlo, hhi⟩, Option.some_inj]
  apply BitVec.eq_of_toNat_eq
  simp only [BitVec.toNat_ofNat]
  omega

theorem regOffset_aligned (r : Reg) : (regOffset r).toNat % 4 = 0 := by cases r <;> decide

/-- No register lies at an unaligned address of the block (20_memory.md R92). -/
theorem regAt_of_unaligned {p : Params} {addr : Nat} (hp : p.wf = true) (hlo : p.base ≤ addr)
    (hhi : addr < p.base + 256) (ha : addr % 4 ≠ 0) : regAt (BitVec.ofNat 8 (addr - p.base)) = none := by
  have hbase := base_mod_of_wf hp
  refine regAt_eq_none_iff.2 fun r hr => ?_
  have := regOffset_aligned r
  rw [hr, BitVec.toNat_ofNat] at this
  omega

/-- A host read of one word inside the block, by its offset. -/
theorem hostRead_of_inside {addr : Nat} (hp : s.params.wf = true) (hlo : s.params.base ≤ addr)
    (hhi : addr < s.params.base + 256) :
    hostRead addr 4 s = .next { (busRead (BitVec.ofNat 8 (addr - s.params.base)) s).2 with
      busData := lanesOf (busRead (BitVec.ofNat 8 (addr - s.params.base)) s).1 } := by
  simp only [hostRead, blockOffset_of_inside hp hlo hhi, if_true]

/-- A host read of another size inside the block is rejected (20_memory.md R92). -/
theorem hostRead_of_partial {addr size : Nat} (hp : s.params.wf = true) (hlo : s.params.base ≤ addr)
    (hhi : addr < s.params.base + 256) (hsize : size ≠ 4) :
    hostRead addr size s = .next { s.reject with busData := List.replicate size 0 } := by
  simp only [hostRead, blockOffset_of_inside hp hlo hhi, if_neg hsize]

/-- A host write of one word inside the block, by its offset. -/
theorem hostWrite_of_inside {addr : Nat} {lanes : List Byte} {v : Word} (hp : s.params.wf = true)
    (hlo : s.params.base ≤ addr) (hhi : addr < s.params.base + 256) (hl : wordOfLanes lanes = some v) :
    hostWrite addr lanes s = .next (busWrite (BitVec.ofNat 8 (addr - s.params.base)) v s) := by
  simp only [hostWrite, blockOffset_of_inside hp hlo hhi, hl]

/-- A host write of another size inside the block is rejected (20_memory.md R92). -/
theorem hostWrite_of_partial {addr : Nat} {lanes : List Byte} (hp : s.params.wf = true) (hlo : s.params.base ≤ addr)
    (hhi : addr < s.params.base + 256) (hl : wordOfLanes lanes = none) : hostWrite addr lanes s = .next s.reject := by
  simp only [hostWrite, blockOffset_of_inside hp hlo hhi, hl]

/-- Only four lanes make a word (20_memory.md R92). -/
theorem wordOfLanes_of_length_ne : ∀ {lanes : List Byte}, lanes.length ≠ 4 → wordOfLanes lanes = none
  | [], _ | [_], _ | [_, _], _ | [_, _, _], _ | _ :: _ :: _ :: _ :: _ :: _, _ => rfl
  | [_, _, _, _], h => absurd rfl h

/-- The lanes that a rejected read leaves (20_memory.md R96). -/
theorem lanesOf_zero : lanesOf 0 = List.replicate 4 0 := by decide

/-- Lane `k` carries bits `8k+7:8k` (20_memory.md R91). -/
theorem getElem?_lanesOf (v : Word) {k : Nat} (hk : k < 4) :
    (lanesOf v)[k]? = some (BitVec.ofNat 8 (v.toNat / 2 ^ (8 * k))) := by
  have lane (n : Nat) : v.extractLsb' n 8 = BitVec.ofNat 8 (v.toNat / 2 ^ n) := by
    apply BitVec.eq_of_toNat_eq
    simp [BitVec.extractLsb'_toNat, Nat.shiftRight_eq_div_pow]
  interval_cases k
  · exact congrArg some (lane 0)
  · exact congrArg some (lane 8)
  · exact congrArg some (lane 16)
  · exact congrArg some (lane 24)

/-- A word is put together again from its lanes. -/
theorem wordOfLanes_lanesOf (v : Word) : wordOfLanes (lanesOf v) = some v := by
  simp only [lanesOf, wordOfLanes, Option.some_inj]
  ext j hj
  simp only [BitVec.getElem_or, BitVec.getElem_setWidth, BitVec.getLsbD_extractLsb', zero_add, BitVec.getElem_shiftLeft]
  grind

/-! ### Windows -/

theorem ofNat_toNat_succ {w : Nat} (x : BitVec w) : BitVec.ofNat w (x.toNat + 1) = x + 1 := by
  simp [BitVec.ofNat_add]

/-- A location written since reset is read without a draw (10_state.md R66). -/
theorem State.elAt_of_written {m : MatReg} {r c : Nat} {x : Half} (use : List Nat) (h : s.elem? m r c = some x) :
    s.elAt use m r c = x := by
  rw [State.elem?] at h
  simp [State.elAt, h]

theorem State.idxAt_of_written {j : Nat} {x : Half} (use : List Nat) (h : Store.get? s.idx j = some x) :
    s.idxAt use j = x := by
  simp [State.idxAt, h]

theorem State.slotLenAt_of_written {k : Nat} {x : Word} (use : List Nat) (h : Store.get? s.slotLen k = some x) :
    s.slotLenAt use k = x := by
  simp [State.slotLenAt, h]

theorem State.slotPresentAt_of_written {k : Nat} {b : Bool} (use : List Nat)
    (h : Store.get? s.slotPresent k = some b) : s.slotPresentAt use k = b := by
  simp [State.slotPresentAt, h]

theorem State.shardAt_of_written {k o : Nat} {b : Byte} (use : List Nat) (h : s.byte? k o = some b) :
    s.shardAt use k o = b := by
  rw [State.byte?] at h
  simp [State.shardAt, h]

/-- Different elements have different keys. -/
theorem elKey_ne {m m' : MatReg} {r r' c c' : Nat} (hr : r < 2 ^ 16) (hc : c < 2 ^ 16) (hr' : r' < 2 ^ 16)
    (hc' : c' < 2 ^ 16) (h : m ≠ m' ∨ r ≠ r' ∨ c ≠ c') : elKey m r c ≠ elKey m' r' c' := by
  intro he
  obtain ⟨hm, hr, hc⟩ := elKey_injective hr hc hr' hc' he
  exact h.elim (absurd hm) fun h => h.elim (absurd hr) (absurd hc)

/-- Different bytes of shard memory have different addresses. -/
theorem shKey_ne {k k' o o' : Nat} (ho : o < 2 ^ 32) (ho' : o' < 2 ^ 32) (h : k ≠ k' ∨ o ≠ o') :
    shKey k o ≠ shKey k' o' := by
  intro he
  obtain ⟨hk, ho⟩ := shKey_injective ho ho' he
  exact h.elim (absurd hk) (absurd ho)

/-! ### Tables -/

theorem logFrom_le (w : Width) (a : Half) (n i : Nat) (x : Half) : logFrom w a n i x ≤ i + n := by
  induction n generalizing i x with
  | zero => exact Nat.zero_le _
  | succ n ih =>
    rw [logFrom]
    split
    · omega
    · have := ih (i + 1) (xtime w x)
      omega

/-- A logarithm fits the 16 bits of a table entry. -/
theorem logTable_lt (w : Width) (a : Half) : logTable w a < 2 ^ 16 := by
  have hf : fieldLimit w < 2 ^ 16 := by cases w <;> decide
  have := logFrom_le w a (fieldLimit w) 0 1
  unfold logTable
  split <;> omega

theorem toNat_tableEntry_log (w : Width) (i : Half) : (tableEntry (w, false) i).toNat = logTable w i :=
  Nat.mod_eq_of_lt (logTable_lt w i)

/-- `TBL_SEL` 0 and 1 select the tables of width 8, 2 and 3 those of width 16 (10_state.md R60). -/
theorem tableOf_width (sel : BitVec 2) : (tableOf sel).1 = if sel.toNat < 2 then .w8 else .w16 := by
  revert sel
  decide

/-- The indices that a table has, by the selection (20_memory.md R103). -/
theorem lt_fieldSize_tableOf_iff (sel : BitVec 2) (i : Half) :
    i.toNat < fieldSize (tableOf sel).1 ↔ 2 ≤ sel.toNat ∨ i.toNat < 256 := by
  have hi := i.isLt
  rw [tableOf_width]
  split <;> simp only [fieldSize, Width.bits] <;> omega

end Sys2Proof.Machine
end

section
/-! PROOFS. The memory family: the write sets of the engine (20_memory.md R108), rejected accesses and byte lanes
(20_memory.md R90 to R92, R96), the busy lock (20_memory.md R97), and the windows (20_memory.md R98 to R103). -/

namespace Sys2Proof.Machine

/-! ### Write sets -/

/-- Settles O43: the step is the engine's turn, with the agenda moved on or not. -/
theorem engineWriteSets : Obligations.EngineWriteSets := by
  intro s t v hb hv hag ht
  rcases hag with ha | ⟨rest, ha⟩
  · exact engineTurn_write_sets hb hv (by simpa [step, ha] using ht)
  · exact engineTurn_write_sets (s := { s with agenda := rest }) hb hv (by simpa [step, ha, takeTurn] using ht)

/-! ### Sizes, alignment and lanes -/

/-- Settles O47: an access of another size makes no word, and no register is found at an unaligned offset. -/
theorem unalignedOrPartialAccessRejected : Obligations.UnalignedOrPartialAccessRejected := by
  intro s rest addr size lanes hp hlo hhi
  constructor
  · intro ha h
    simp only [step, ha, takeTurn, hostTurn]
    by_cases hsize : size = 4
    · subst hsize
      rw [hostRead_of_inside (s := { s with agenda := rest }) hp hlo hhi,
        busRead_reserved _ (regAt_of_unaligned hp hlo hhi (h.resolve_left fun hne => hne rfl)), lanesOf_zero]
      rfl
    · exact hostRead_of_partial hp hlo hhi hsize
  · intro ha h
    simp only [step, ha, takeTurn, hostTurn]
    cases hl : wordOfLanes lanes with
    | none => exact hostWrite_of_partial hp hlo hhi hl
    | some v =>
      have hu : addr % 4 ≠ 0 := by
        refine h.resolve_left fun hlen => ?_
        simp [wordOfLanes_of_length_ne hlen] at hl
      rw [hostWrite_of_inside (s := { s with agenda := rest }) hp hlo hhi hl,
        busWrite_reserved v _ (regAt_of_unaligned hp hlo hhi hu)]
      rfl

/-- Settles O58: lane by lane, a read leaves and a write brings `lanesOf` of the word. -/
theorem busLanesAreLittleEndian : Obligations.BusLanesAreLittleEndian := by
  intro s rest addr hp hlo hhi _ off u lane
  constructor
  · intro ha
    refine ⟨lanesOf (busRead off u).1, rfl, fun k hk => getElem?_lanesOf _ hk, ?_⟩
    simp only [step, ha, takeTurn, hostTurn]
    exact hostRead_of_inside (s := u) hp hlo hhi
  · intro lanes v ha hlen hlanes
    have he : lanes = lanesOf v := List.ext_getElem? fun k => by
      rcases Nat.lt_or_ge k 4 with hk | hk
      · rw [hlanes k hk, getElem?_lanesOf v hk]
      · rw [List.getElem?_eq_none (by omega), List.getElem?_eq_none hk]
    simp only [step, ha, takeTurn, hostTurn]
    exact hostWrite_of_inside (s := u) hp hlo hhi (he ▸ wordOfLanes_lanesOf v)

/-! ### The busy lock -/

/-- Settles O48: what passes the lock is open while busy, and the open registers have no other effect. -/
theorem busyLock : Obligations.BusyLock := by
  intro off v s hb
  refine ⟨fun hoff => ?_, fun hoff => ?_, fun hoff => ?_, fun hoff => ?_⟩
  · rcases busRead_cases off s with h | ⟨r, a, hr, hl, _, _⟩
    · exact h
    · rw [← regAt_eq_some_iff.1 hr] at hoff
      exact absurd ((openWhileBusy_read_iff r).1 ((lockedOut_of_busy hb).1 hl)) hoff
  · simp only [List.mem_cons, List.not_mem_nil, or_false] at hoff
    have read {r : Reg} {x : Word} (ho : openWhileBusy false r = true) (hx : readReg r s = some (x, s)) :
        (busRead (regOffset r) s).2 = s := by
      rw [busRead_accepted (lockedOut_of_open s ho) hx]
    rcases hoff with rfl | rfl | rfl | rfl | rfl
    · exact read (r := .id) rfl rfl
    · exact read (r := .capNmax) rfl rfl
    · exact read (r := .capShcap) rfl rfl
    · exact read (r := .status) rfl rfl
    · exact read (r := .intEn) rfl rfl
  · rcases busWrite_cases off v s with h | ⟨r, a, hr, hl, _, _⟩
    · exact h
    · rw [← regAt_eq_some_iff.1 hr] at hoff
      exact absurd ((openWhileBusy_write_iff r).1 ((lockedOut_of_busy hb).1 hl)) hoff
  · simp only [List.mem_cons, List.not_mem_nil, or_false] at hoff
    rcases hoff with rfl | rfl
    · have h : busWrite 0x0C v s = { s with status := s.status.clearedBy v } :=
        busWrite_accepted (r := .status) (lockedOut_of_open s rfl) rfl
      rw [h]
      exact ⟨fun ha => ((Bool.and_eq_true _ _).mp ha).1, _, _, _, rfl⟩
    · have h : busWrite 0x14 v s = { s with intEn := v.setWidth 2 } :=
        busWrite_accepted (r := .intEn) (lockedOut_of_open s rfl) rfl
      rw [h]
      exact ⟨id, _, _, _, rfl⟩

/-! ### Windows -/

/-- Settles O55: the element at the pointer, by its key. -/
theorem matrixWindow : Obligations.MatrixWindow := by
  intro v s hb _ inRange
  simp only [ofNat_toNat_succ, BitVec.ofNat_toNat]
  refine ⟨fun h => busRead_refused (r := .matData) (if_neg h), fun h => ?_, fun h => ?_, fun hsel h => ?_⟩
  · have hread : busRead 0x50 s = _ := busRead_accepted (r := .matData) (lockedOut_of_idle hb) (if_pos h)
    rw [hread]
    exact ⟨fun x hx => by rw [State.elAt_of_written [] hx], rfl⟩
  · refine busWrite_refused (r := .matData) (if_neg fun ⟨hsel, hin⟩ => ?_)
    exact h.elim hsel fun hout => hout hin
  · refine ⟨_, busWrite_accepted (r := .matData) (lockedOut_of_idle hb) (if_pos ⟨hsel, h⟩),
      Store.get?_set_self _ _ _, fun m r c hr hc hne => ?_, rfl⟩
    exact Store.get?_set_of_ne _ _ _ _ (elKey_ne hr hc s.matRow.isLt s.matCol.isLt hne)

/-- Settles O56: the byte at the pointer, by its address. -/
theorem shardWindow : Obligations.ShardWindow := by
  intro v s hb _ inRange
  simp only [ofNat_toNat_succ, BitVec.ofNat_toNat]
  refine ⟨fun h => ⟨busRead_refused (r := .shData) (if_neg h), busWrite_refused (r := .shData) (if_neg h)⟩,
    fun h => ?_⟩
  have hread : busRead 0x88 s = _ := busRead_accepted (r := .shData) (lockedOut_of_idle hb) (if_pos h)
  rw [hread]
  refine ⟨fun b hx => by rw [State.shardAt_of_written [] hx], rfl, _,
    busWrite_accepted (r := .shData) (lockedOut_of_idle hb) (if_pos h), Store.get?_set_self _ _ _,
    fun k o ho hne => ?_, rfl⟩
  exact Store.get?_set_of_ne _ _ _ _ (shKey_ne ho s.shOff.isLt hne)

/-- The index window in range, while idle (20_memory.md R100). -/
theorem indexWindow_of_lt {s : State} (v : Word) (hb : s.status.busy = false) (h : s.idxPtr.toNat < s.params.nMax) :
    busWrite 0x68 v s =
        { s with idx := Store.set s.idx s.idxPtr.toNat (v.setWidth 16), idxPtr := s.idxPtr + 1 } ∧
      busRead 0x68 s = ((s.idxAt [] s.idxPtr.toNat).setWidth 32,
        { s with idxPtr := s.idxPtr + 1, draws := s.draws + 1 }) :=
  idle_accesses .idxData hb (if_pos h) (if_pos h)

/-- The presence window in range, while idle (20_memory.md R102). -/
theorem presentWindow_of_lt {s : State} (v : Word) (hb : s.status.busy = false)
    (h : s.slotSel.toNat < s.params.nMax) :
    busWrite 0x7C v s = { s with slotPresent := Store.set s.slotPresent s.slotSel.toNat (v.getLsbD 0) } ∧
      busRead 0x7C s = ((BitVec.ofBool (s.slotPresentAt [] s.slotSel.toNat)).setWidth 32,
        { s with draws := s.draws + 1 }) :=
  idle_accesses .slotPresent hb (if_pos h) (if_pos h)

/-- The table window in range, while idle (20_memory.md R103). -/
theorem tableWindow_of_lt {s : State} (hb : s.status.busy = false) (h : 2 ≤ s.tblSel.toNat ∨ s.tblIdx.toNat < 256) :
    busRead 0x98 s = ((tableEntry (tableOf s.tblSel) s.tblIdx).setWidth 32, { s with tblIdx := s.tblIdx + 1 }) :=
  busRead_accepted (r := .tblData) (lockedOut_of_idle hb) (if_pos ((lt_fieldSize_tableOf_iff _ _).2 h))

/-- Settles O57, window by window. -/
theorem indexDescriptorAndTableWindows : Obligations.IndexDescriptorAndTableWindows := by
  intro v s hb
  simp only [ofNat_toNat_succ]
  refine ⟨fun h => ⟨busRead_refused (r := .idxData) (if_neg h.not_gt),
      busWrite_refused (r := .idxData) (if_neg h.not_gt)⟩, fun h => ?_, fun h => ?_, fun h => ?_, fun h => ?_,
    fun hsel hidx => ?_⟩
  · obtain ⟨hw, hr⟩ := indexWindow_of_lt v hb h
    simp only [BitVec.ofNat_toNat]
    exact ⟨_, hw, fun j => Store.get?_set _ _ _ _, rfl, fun x hx => by rw [hr, State.idxAt_of_written [] hx]⟩
  · obtain ⟨hw, hr⟩ := presentWindow_of_lt v hb h
    refine ⟨_, _, hw, fun k => Store.get?_set _ _ _ _, rfl, fun hn => ⟨busWrite_accepted (r := .slotLen)
      (lockedOut_of_idle hb) (if_pos ⟨h, hn⟩), fun k => Store.get?_set _ _ _ _, rfl⟩, fun x hx => ?_, fun b hx => ?_⟩
    · rw [← State.slotLenAt_of_written [] hx]
      exact busRead_accepted (r := .slotLen) (lockedOut_of_idle hb) (if_pos h)
    · rw [hr, State.slotPresentAt_of_written [] hx]
      cases b <;> rfl
  · exact ⟨busRead_refused (r := .slotLen) (if_neg h.not_gt), busRead_refused (r := .slotPresent) (if_neg h.not_gt),
      busWrite_refused (r := .slotPresent) (if_neg h.not_gt)⟩
  · refine ⟨(tableEntry (tableOf s.tblSel) s.tblIdx).toNat, ?_, fun hsel => ?_, fun hsel => ?_, fun hsel => ?_,
      fun hsel => ?_⟩
    · rw [BitVec.ofNat_toNat]
      exact tableWindow_of_lt hb h
    · rw [hsel]; exact toNat_tableEntry_log .w8 _
    · rw [hsel]; rfl
    · rw [hsel]; exact toNat_tableEntry_log .w16 _
    · rw [hsel]; rfl
  · refine busRead_refused (r := .tblData) (if_neg fun hlt => ?_)
    rcases (lt_fieldSize_tableOf_iff _ _).1 hlt with h | h
    · exact h.not_gt hsel
    · exact hidx.not_gt h

end Sys2Proof.Machine
end

section
/-! SUPPORT. Command words and their fields: a word is packed from its fields, an opcode with the field values that it
allows is one command and one word, and the decoder answers exactly these. -/

namespace Sys2Proof

variable {o : Opcode} {w : Width} {md ma mb : MatReg}

/-! ### The opcode field -/

theorem Opcode.ofCode_eq_some_iff {c : BitVec 8} : Opcode.ofCode c = some o ↔ o.code = c := by
  refine ⟨fun h => by simpa using List.find?_some h, fun h => ?_⟩
  subst h
  cases o <;> rfl

theorem toNat_opcField (v : Word) : (opcField v).toNat = v.toNat % 256 := by
  simp [opcField, BitVec.extractLsb'_toNat]

/-- The fifteen opcodes lie outside the three reserved ranges of 30_encoding.md R138. -/
theorem Opcode.code_not_reserved (o : Opcode) :
    ¬((0x06 ≤ o.code.toNat ∧ o.code.toNat ≤ 0x0F) ∨ (0x15 ≤ o.code.toNat ∧ o.code.toNat ≤ 0x1F) ∨
      0x24 ≤ o.code.toNat) := by
  cases o <;> decide

/-! ### The operand fields as values -/

theorem Width.field_ofField (b : Bool) : (Width.ofField b).field = BitVec.ofBool b := by cases b <;> rfl

theorem Width.ofField_field (w : Width) : Width.ofField (w.field.getLsbD 0) = w := by cases w <;> rfl

theorem MatReg.field_ofField : ∀ {x : BitVec 3}, x.toNat ≤ 4 → (MatReg.ofField x).field = x := by decide

theorem MatReg.ofField_field (m : MatReg) : MatReg.ofField m.field = m := by cases m <;> rfl

theorem MatReg.field_le (m : MatReg) : m.field.toNat ≤ 4 := by cases m <;> decide

theorem MatReg.field_le_of_general {m : MatReg} (h : m.general = true) : m.field.toNat ≤ 3 := by
  cases m
  case enc => cases h
  all_goals decide

/-! ### The fields of a packed word -/

theorem packWord_operands (o : Opcode) (w : BitVec 1) (md ma mb : BitVec 3) :
    wField (packWord o w md ma mb) = w.getLsbD 0 ∧ mdField (packWord o w md ma mb) = md ∧
      maField (packWord o w md ma mb) = ma ∧ mbField (packWord o w md ma mb) = mb := by
  unfold wField mdField maField mbField packWord
  refine ⟨by simp, ?_, ?_, ?_⟩
  all_goals
    ext i hi
    simp
    grind

/-- The fields of 30_encoding.md R131 cover the word: it is packed from them when its reserved bits are 0. -/
theorem packWord_of_fields {v : Word} (ho : o.code = opcField v) (hr : rsvField v = 0) :
    packWord o (BitVec.ofBool (wField v)) (mdField v) (maField v) (mbField v) = v := by
  have hhigh : ∀ i, 18 ≤ i → v.getLsbD i = false := fun i hi => by
    have h := congrArg (BitVec.getLsbD · (i - 18)) hr
    grind [rsvField]
  unfold packWord wField mdField maField mbField
  rw [ho, opcField]
  ext i hi
  simp
  grind

/-! ### Commands, words and the decoder -/

/-- The operand values with which `o` is a command: the first value of each field that `o` does not use, and a general
destination (30_encoding.md R134, R137 (c), (d)). -/
structure Opcode.Fits (o : Opcode) (w : Width) (md ma mb : MatReg) : Prop where
  general : md.general = true
  w_unused : o.uses.w = false → w = .w8
  md_unused : o.uses.md = false → md = .m0
  ma_unused : o.uses.ma = false → ma = .m0
  mb_unused : o.uses.mb = false → mb = .m0

/-- The encoder writes 0 in a field that `o` does not use, which is what the first value of that field is written as. -/
theorem Opcode.Fits.encode_build (h : o.Fits w md ma mb) :
    encode (o.build w md ma mb) = packWord o w.field md.field ma.field mb.field := by
  cases o with
  | nop | rsEncode | rsVerify | rsReconstruct =>
    rw [h.w_unused rfl, h.md_unused rfl, h.ma_unused rfl, h.mb_unused rfl]; rfl
  | gfAdd | gfMul | gfDiv | gfInv | gfPow | rsConstruct =>
    rw [h.md_unused rfl, h.ma_unused rfl, h.mb_unused rfl]; rfl
  | matIdentity => rw [h.w_unused rfl, h.ma_unused rfl, h.mb_unused rfl]; rfl
  | matMul => rfl
  | matSub => rw [h.w_unused rfl, h.mb_unused rfl]; rfl
  | matInv => rw [h.mb_unused rfl]; rfl
  | matBuild => rw [h.ma_unused rfl, h.mb_unused rfl]; rfl

/-- Every well-formed command is an opcode with operand values that fit it. -/
theorem Instr.exists_fits {i : Instr} (h : i.wf = true) :
    ∃ o w md ma mb, Opcode.Fits o w md ma mb ∧ i = o.build w md ma mb := by
  refine ⟨i.opcode, ?_⟩
  cases i with
  | nop | rsEncode | rsVerify | rsReconstruct =>
    exact ⟨.w8, .m0, .m0, .m0, ⟨rfl, fun _ => rfl, fun _ => rfl, fun _ => rfl, fun _ => rfl⟩, rfl⟩
  | gfAdd w | gfMul w | gfDiv w | gfInv w | gfPow w | rsConstruct w =>
    exact ⟨w, .m0, .m0, .m0, ⟨rfl, nofun, fun _ => rfl, fun _ => rfl, fun _ => rfl⟩, rfl⟩
  | matIdentity md => exact ⟨.w8, md, .m0, .m0, ⟨h, fun _ => rfl, nofun, fun _ => rfl, fun _ => rfl⟩, rfl⟩
  | matMul w md ma mb => exact ⟨w, md, ma, mb, ⟨h, nofun, nofun, nofun, nofun⟩, rfl⟩
  | matSub md ma => exact ⟨.w8, md, ma, .m0, ⟨h, fun _ => rfl, nofun, nofun, fun _ => rfl⟩, rfl⟩
  | matInv w md ma => exact ⟨w, md, ma, .m0, ⟨h, nofun, nofun, nofun, fun _ => rfl⟩, rfl⟩
  | matBuild w md => exact ⟨w, md, .m0, .m0, ⟨h, nofun, nofun, fun _ => rfl, fun _ => rfl⟩, rfl⟩

/-- What the decoder checks of a word with opcode `o` (30_encoding.md R137, R139). A field that `o` does not use is 0,
so the bounds of MD, MA and MB hold whether or not `o` uses them. -/
structure LegalWord (o : Opcode) (v : Word) : Prop where
  opc : o.code = opcField v
  rsv : rsvField v = 0
  w_unused : o.uses.w = false → wField v = false
  md_unused : o.uses.md = false → mdField v = 0
  ma_unused : o.uses.ma = false → maField v = 0
  mb_unused : o.uses.mb = false → mbField v = 0
  md_le : (mdField v).toNat ≤ 3
  ma_le : (maField v).toNat ≤ 4
  mb_le : (mbField v).toNat ≤ 4

/-- The command that the fields of `v` say for the opcode `o`. -/
def buildFromFields (o : Opcode) (v : Word) : Instr :=
  o.build (Width.ofField (wField v)) (MatReg.ofField (mdField v)) (MatReg.ofField (maField v))
    (MatReg.ofField (mbField v))

theorem unusedFieldSet_eq_false_iff {u : FieldsUsed} {v : Word} :
    unusedFieldSet u v = false ↔ (u.w = false → wField v = false) ∧ (u.md = false → mdField v = 0) ∧
      (u.ma = false → maField v = 0) ∧ (u.mb = false → mbField v = 0) := by
  simp [unusedFieldSet, and_assoc]

theorem toNat_le_of_used {u : Bool} {x : BitVec 3} {n : Nat} (h0 : u = false → x = 0)
    (h : u = true → x.toNat ≤ n) : x.toNat ≤ n := by
  cases u with
  | false => simp [h0 rfl]
  | true => exact h rfl

/-- The decoder answers a command exactly when every check of 30_encoding.md R139 passes. -/
theorem decode_eq_ok_iff {v : Word} {i : Instr} :
    decode v = .ok i ↔ ∃ o, LegalWord o v ∧ i = buildFromFields o v := by
  constructor
  · intro h
    unfold decode at h
    split at h
    · cases h
    · rename_i o ho
      split_ifs at h with hr hu hd hs
      cases h
      obtain ⟨hw0, hd0, ha0, hb0⟩ := unusedFieldSet_eq_false_iff.1 (Bool.eq_false_iff.2 hu)
      simp only [Bool.or_eq_true, Bool.and_eq_true, decide_eq_true_eq, not_or, not_and, Nat.not_lt] at hd hs
      exact ⟨o, ⟨Opcode.ofCode_eq_some_iff.1 ho, not_not.1 hr, hw0, hd0, ha0, hb0, toNat_le_of_used hd0 hd,
        toNat_le_of_used ha0 hs.1, toNat_le_of_used hb0 hs.2⟩, rfl⟩
  · rintro ⟨o, h, rfl⟩
    have hu := unusedFieldSet_eq_false_iff.2 ⟨h.w_unused, h.md_unused, h.ma_unused, h.mb_unused⟩
    simp [decode, Opcode.ofCode_eq_some_iff.2 h.opc, h.rsv, hu, h.md_le.not_gt, h.ma_le.not_gt, h.mb_le.not_gt,
      buildFromFields]

theorem LegalWord.fits {v : Word} (h : LegalWord o v) :
    o.Fits (Width.ofField (wField v)) (MatReg.ofField (mdField v)) (MatReg.ofField (maField v))
      (MatReg.ofField (mbField v)) where
  general := Machine.MatReg.general_ofField h.md_le
  w_unused hu := congrArg Width.ofField (h.w_unused hu)
  md_unused hu := congrArg MatReg.ofField (h.md_unused hu)
  ma_unused hu := congrArg MatReg.ofField (h.ma_unused hu)
  mb_unused hu := congrArg MatReg.ofField (h.mb_unused hu)

theorem Opcode.Fits.legalWord (h : o.Fits w md ma mb) :
    LegalWord o (packWord o w.field md.field ma.field mb.field) := by
  obtain ⟨ho, hr⟩ := Laws.EncodedFields.packWord_fields o w.field md.field ma.field mb.field
  obtain ⟨hw, hd, ha, hb⟩ := packWord_operands o w.field md.field ma.field mb.field
  exact {
    opc := ho.symm
    rsv := hr
    w_unused := fun hu => by rw [hw, h.w_unused hu]; rfl
    md_unused := fun hu => by rw [hd, h.md_unused hu]; rfl
    ma_unused := fun hu => by rw [ha, h.ma_unused hu]; rfl
    mb_unused := fun hu => by rw [hb, h.mb_unused hu]; rfl
    md_le := by rw [hd]; exact MatReg.field_le_of_general h.general
    ma_le := by rw [ha]; exact ma.field_le
    mb_le := by rw [hb]; exact mb.field_le }

/-- A legal word is the one of the command that its fields say: no bit of it is dropped. -/
theorem LegalWord.encode_buildFromFields {v : Word} (h : LegalWord o v) : encode (buildFromFields o v) = v := by
  rw [buildFromFields, h.fits.encode_build, Width.field_ofField, MatReg.field_ofField (h.md_le.trans (by decide)),
    MatReg.field_ofField h.ma_le, MatReg.field_ofField h.mb_le, packWord_of_fields h.opc h.rsv]

theorem buildFromFields_packWord :
    buildFromFields o (packWord o w.field md.field ma.field mb.field) = o.build w md ma mb := by
  obtain ⟨hw, hd, ha, hb⟩ := packWord_operands o w.field md.field ma.field mb.field
  rw [buildFromFields, hw, hd, ha, hb, Width.ofField_field, MatReg.ofField_field, MatReg.ofField_field,
    MatReg.ofField_field]

/-- The word of a well-formed command decodes to that command. -/
theorem decode_encode {i : Instr} (h : i.wf = true) : decode (encode i) = .ok i := by
  obtain ⟨o, w, md, ma, mb, hf, rfl⟩ := Instr.exists_fits h
  rw [hf.encode_build, decode_eq_ok_iff]
  exact ⟨o, hf.legalWord, buildFromFields_packWord.symm⟩

/-- A word that decodes to a command is the word of that command. -/
theorem encode_of_decode {v : Word} {i : Instr} (h : decode v = .ok i) : encode i = v := by
  obtain ⟨o, hv, rfl⟩ := decode_eq_ok_iff.1 h
  exact hv.encode_buildFromFields

end Sys2Proof
end

section
/-! PROOFS. The encoding family: decoder and encoder agree (30_encoding.md R131, R137, R139), words written out in the
spec (30_encoding.md R140), reserved opcodes (30_encoding.md R138), and the completion of an illegal word
(40_command_lifecycle.md R154). -/

namespace Sys2Proof.Machine

/-! ### Words and commands -/

/-- Settles O1: a decoded command is well formed and no bit of its word is dropped; the word of a well-formed command
passes every check of the decoder. -/
theorem decodeEncodeAgree : Obligations.DecodeEncodeAgree := by
  intro v i
  constructor
  · exact fun h => ⟨wf_of_decode h, encode_of_decode h⟩
  · rintro ⟨hwf, rfl⟩
    exact decode_encode hwf

/-- Settles O2: each clause is one closed word, which the decoder evaluates. -/
theorem workedWordsDecode : Obligations.WorkedWordsDecode := by
  unfold Obligations.WorkedWordsDecode
  decide

/-- Settles O3: a word that decodes has one of the fifteen opcodes in bits 7:0. -/
theorem reservedOpcodesAreIllegal : Obligations.ReservedOpcodesAreIllegal := by
  intro v opc hres
  cases hd : decode v with
  | error e => exact ⟨e, rfl⟩
  | ok i =>
    obtain ⟨o, hv, -⟩ := decode_eq_ok_iff.1 hd
    have hopc : o.code.toNat = opc := by rw [hv.opc, toNat_opcField]
    exact absurd (hopc ▸ hres) o.code_not_reserved

/-! ### The engine's turn on an illegal word -/

theorem finish_some_eq_afterFailure (e : CmdError) (s : State) : s.finish (some e) = afterFailure e.code s := rfl

/-- The engine's turn on a pending word, while busy (40_command_lifecycle.md R152). -/
theorem engineTurn_of_pending {s : State} {v : Word} (hb : s.status.busy = true) (hp : s.pend = some v) :
    engineTurn s = executeWord v s := by
  simp [engineTurn, hb, hp]

theorem executeWord_of_illegal {v : Word} {e : IllegalWord} (h : decode v = .error e) (s : State) :
    executeWord v s = .next (afterFailure 8 s) := by
  simp only [executeWord, h, complete_eq, conclude_error, finish_some_eq_afterFailure, CmdError.code]

/-- The engine's turn on an illegal word, while busy (30_encoding.md R137, 40_command_lifecycle.md R154). -/
theorem engineTurn_of_illegal {s : State} {v : Word} {e : IllegalWord} (hb : s.status.busy = true)
    (hp : s.pend = some v) (he : decode v = .error e) : engineTurn s = .next (afterFailure 8 s) :=
  (engineTurn_of_pending hb hp).trans (executeWord_of_illegal he s)

theorem step_of_agenda_nil {s : State} (h : s.agenda = []) : step s = engineTurn s := by simp [step, h]

theorem step_of_engine_turn {s : State} {rest : List Turn} (h : s.agenda = .engine :: rest) :
    step s = engineTurn { s with agenda := rest } := by
  simp [step, h, takeTurn]

/-- Settles O5: the step is the engine's turn, and the pending word is executed as an illegal one. -/
theorem illegalWordCompletesWithCode8 : Obligations.IllegalWordCompletesWithCode8 := by
  intro s v e hb hp he
  constructor
  · exact fun ha => (step_of_agenda_nil ha).trans (engineTurn_of_illegal hb hp he)
  · exact fun rest ha => (step_of_engine_turn ha).trans
      (engineTurn_of_illegal (s := { s with agenda := rest }) hb hp he)

end Sys2Proof.Machine
end

section
/-! PROOFS. The command lifecycle: issue (40_command_lifecycle.md R150), the engine's step on a decoded command (R152,
R153), what every completion writes and keeps (R152, R156, R157), and failures (R154). -/

namespace Sys2Proof.Machine

variable {s t u : State} {i : Instr}

/-! ### What a completion can write -/

/-- `s` with every field that some command writes beside the completion's own taken from `x`
(40_command_lifecycle.md R156). -/
def State.withResultsOf (s x : State) : State :=
  { s with
    status := { s.status with
      verifyOk := x.status.verifyOk, configured := x.status.configured, engW16 := x.status.engW16 }
    engNdata := x.engNdata
    engNparity := x.engNparity
    gfR := x.gfR
    shapes := x.shapes
    el := x.el
    slotLen := x.slotLen
    slotPresent := x.slotPresent
    sh := x.sh }

/-- The effect of a command lies in the result fields. -/
theorem Effect.eq_withResultsOf (he : Effect s i u) : u = s.withResultsOf u := by
  cases he with
  | nop | intact | gf | identity | mul | sub | inv | build | construct | encode | verify | reconstruct => rfl

theorem failBase_eq_withResultsOf (i : Instr) (s : State) : failBase i s = s.withResultsOf (failBase i s) := by
  unfold failBase
  split <;> rfl

/-- Every command completes, with an outcome, after writing result fields only. -/
theorem exists_completion (i : Instr) (s : State) : ∃ x o, exec i s = .next ((s.withResultsOf x).finish o) := by
  obtain ⟨b, r, hbr, -⟩ := exec_is_completion i s
  have hx : exec i s = .next (b.conclude r) := hbr.trans (complete_eq b r)
  rcases exec_cases hx with ⟨u, hu, ht⟩ | ⟨e, ht⟩
  · exact ⟨u, none, by rw [hx, ht, ← hu.eq_withResultsOf]⟩
  · exact ⟨failBase i s, some e, by rw [hx, ht, ← failBase_eq_withResultsOf]⟩

/-- Settles O6: no operand or pointer register is a result field, and the outcome alone gives `ERR` and `ERRCODE`. -/
theorem everyCommandCompletes : Obligations.EveryCommandCompletes := by
  intro i s
  obtain ⟨x, o, hx⟩ := exists_completion i s
  refine ⟨_, hx, rfl, rfl, rfl, isSome_iff_outcomeCode_ne_zero o, outcomeCode_le o, ?_⟩
  and_intros
  all_goals rfl

/-! ### Failed commands -/

/-- A completion with `ERR = 1` is one of the command's errors, with no effect (40_command_lifecycle.md R154). -/
theorem exec_failed (h : exec i s = .next t) (herr : t.status.err = true) :
    ∃ e, t = (failBase i s).finish (some e) := by
  rcases exec_cases h with ⟨u, -, rfl⟩ | hfail
  · cases herr
  · exact hfail

theorem failBase_eq_withVerifyOk (i : Instr) (s : State) :
    failBase i s = if i = .rsVerify then withVerifyOk false s else s := rfl

/-- Settles O7: the error's completion from the state at issue, with `VERIFY_OK` cleared for RS_VERIFY. -/
theorem failedCommandChangesOnlyStatus : Obligations.FailedCommandChangesOnlyStatus := by
  intro i s t h herr
  obtain ⟨e, rfl⟩ := exec_failed h herr
  rw [← failBase_eq_withVerifyOk]
  exact finish_some_eq_afterFailure e _

/-! ### Result fields and their commands -/

/-- Only RS_VERIFY writes `VERIFY_OK` (44_rs_engine.md R266). -/
theorem Effect.keeps_verifyOk (he : Effect s i u) (hi : i ≠ .rsVerify) : u.status.verifyOk = s.status.verifyOk := by
  cases he with
  | verify => exact absurd rfl hi
  | nop | intact | gf | identity | mul | sub | inv | build | construct | encode | reconstruct => rfl

/-- Only RS_CONSTRUCT writes `CONFIGURED` and `ENG_W16` (44_rs_engine.md R253). -/
theorem Effect.keeps_configuration (he : Effect s i u) (hi : ∀ w, i ≠ .rsConstruct w) :
    u.status.configured = s.status.configured ∧ u.status.engW16 = s.status.engW16 := by
  cases he with
  | construct w => exact absurd rfl (hi w)
  | nop | intact | gf | identity | mul | sub | inv | build | encode | verify | reconstruct => exact ⟨rfl, rfl⟩

/-- The commands with a field-arithmetic opcode. -/
theorem Instr.exists_width_of_gf_opcode (h : i.opcode = .gfAdd ∨ i.opcode = .gfMul ∨ i.opcode = .gfDiv ∨
    i.opcode = .gfInv ∨ i.opcode = .gfPow) :
    ∃ w, i = .gfAdd w ∨ i = .gfMul w ∨ i = .gfDiv w ∨ i = .gfInv w ∨ i = .gfPow w := by
  cases i with
  | gfAdd w | gfMul w | gfDiv w | gfInv w | gfPow w => exact ⟨w, by simp⟩
  | nop | matIdentity | matMul | matSub | matInv | matBuild | rsConstruct | rsEncode | rsVerify | rsReconstruct =>
    simp [Instr.opcode] at h

/-- Only the field-arithmetic commands write `GF_R` (10_state.md R45). -/
theorem Effect.keeps_gfR (he : Effect s i u)
    (hi : ∀ w, i ≠ .gfAdd w ∧ i ≠ .gfMul w ∧ i ≠ .gfDiv w ∧ i ≠ .gfInv w ∧ i ≠ .gfPow w) : u.gfR = s.gfR := by
  cases he with
  | gf _ r hop =>
    obtain ⟨w, hw⟩ := Instr.exists_width_of_gf_opcode hop
    simp [hi w] at hw
  | nop | intact | identity | mul | sub | inv | build | construct | encode | verify | reconstruct => rfl

theorem failBase_verifyOk (hi : i ≠ .rsVerify) : (failBase i s).status.verifyOk = s.status.verifyOk := by
  rw [failBase, if_neg hi]

/-- A failed command keeps every result field but `VERIFY_OK`. -/
theorem failBase_results (i : Instr) (s : State) :
    ((failBase i s).status.configured = s.status.configured ∧ (failBase i s).status.engW16 = s.status.engW16) ∧
      (failBase i s).gfR = s.gfR := by
  unfold failBase
  split <;> exact ⟨⟨rfl, rfl⟩, rfl⟩

/-- Settles O8, by the outcome: a success has one effect, and a failure keeps the last three fields whatever the
command. -/
theorem resultFieldsWrittenOnlyByTheirCommand : Obligations.ResultFieldsWrittenOnlyByTheirCommand := by
  intro i s t h
  rcases exec_cases h with ⟨u, hu, rfl⟩ | ⟨e, rfl⟩
  · have hsuccess : (u.finish none).status.err ≠ true := nofun
    exact ⟨hu.keeps_verifyOk, fun hc => hu.keeps_configuration (hc.resolve_right hsuccess),
      fun hg => hu.keeps_gfR (hg.resolve_right hsuccess)⟩
  · obtain ⟨hconf, hgf⟩ := failBase_results i s
    exact ⟨failBase_verifyOk, fun _ => hconf, fun _ => hgf⟩

/-! ### The engine's turn on a command -/

/-- The engine's turn on a pending command, while busy (40_command_lifecycle.md R152, R153). -/
theorem engineTurn_of_command {v : Word} (hb : s.status.busy = true) (hp : s.pend = some v) (hi : decode v = .ok i) :
    engineTurn s = exec i s :=
  (engineTurn_of_pending hb hp).trans (by simp only [executeWord, hi])

/-- Settles O4: the step is the engine's turn, and the pending word is executed as its command. -/
theorem stepRunsDecodedCommand : Obligations.StepRunsDecodedCommand := by
  intro s v i hb hp hi
  constructor
  · exact fun ha => (step_of_agenda_nil ha).trans (engineTurn_of_command hb hp hi)
  · exact fun rest ha => (step_of_engine_turn ha).trans
      (engineTurn_of_command (s := { s with agenda := rest }) hb hp hi)

theorem finish_none_eq_afterSuccess (u : State) : u.finish none = afterSuccess u := rfl

/-- Settles O10: NOP hands the state at issue to a successful completion. -/
theorem nopCompletes : Obligations.NopCompletes := fun s =>
  (complete_eq s (.ok s)).trans (congrArg Host.Outcome.next (finish_none_eq_afterSuccess s))

/-! ### Issue -/

/-- Settles O49: an idle block accepts the write, and a busy one rejects it, since `CMD` is not open while busy. -/
theorem commandWriteIssues : Obligations.CommandWriteIssues := by
  intro v s
  constructor
  · exact fun hb => busWrite_accepted (r := .cmd) (lockedOut_of_idle hb) rfl
  · intro hb
    obtain ⟨-, -, hreject, -⟩ := busyLock 0x10 v s hb
    exact hreject (by decide)

end Sys2Proof.Machine
end

section
/-! SUPPORT. The field of each width as powers of `g = x` (41_field_arith.md R170 to R173): multiplication by `x` is
linear over exclusive-or, the product of R172 adds the exponents of powers of `x`, and `x` has order `q - 1`, so its
powers are the non-zero elements. `g^i` is spelled `(xtime w)^[i] 1`. -/

namespace Sys2Proof.Machine

open Function (IsPeriodicPt minimalPeriod)

variable {w : Width} {a b : Half} {i j n : Nat}

/-! ### Field elements -/

theorem isElem_iff_getLsbD : IsElem w a ↔ ∀ k, w.bits ≤ k → a.getLsbD k = false :=
  ⟨fun h _ hk => Nat.testBit_lt_two_pow (lt_of_lt_of_le h (Nat.pow_le_pow_right (by decide) hk)),
    Nat.lt_pow_two_of_testBit _⟩

theorem isElem_zero (w : Width) : IsElem w 0 := Nat.two_pow_pos _

theorem isElem_one (w : Width) : IsElem w 1 := Nat.one_lt_two_pow (by cases w <;> decide)

theorem isElem_lowPart (w : Width) (v : Half) : IsElem w (lowPart w v) :=
  lt_of_le_of_lt (Nat.mod_le _ _) (Nat.mod_lt _ (Nat.two_pow_pos _))

/-- Field addition is closed (41_field_arith.md R170). -/
theorem IsElem.xor (ha : IsElem w a) (hb : IsElem w b) : IsElem w (a ^^^ b) := by
  simpa only [IsElem, BitVec.toNat_xor] using Nat.xor_lt_two_pow ha hb

theorem getLsbD_lowPart (w : Width) (v : Half) (k : Nat) :
    (lowPart w v).getLsbD k = (decide (k < w.bits) && v.getLsbD k) := by
  have hv : v.getLsbD k = v.toNat.testBit k := rfl
  have hlt : k < w.bits → k < 16 := fun h => lt_of_lt_of_le h (by cases w <;> decide)
  rw [lowPart, BitVec.getLsbD_ofNat, Nat.testBit_mod_two_pow, hv]
  by_cases hk : k < w.bits <;> simp [hk, hlt]

theorem lowPart_xor (w : Width) (a b : Half) : lowPart w (a ^^^ b) = lowPart w a ^^^ lowPart w b := by
  apply BitVec.eq_of_getLsbD_eq
  intro k _
  simp only [getLsbD_lowPart, BitVec.getLsbD_xor, Bool.and_xor_distrib_left]

/-! ### Multiplication by `x` -/

theorem xtime_zero (w : Width) : xtime w 0 = 0 := by cases w <;> decide

/-- Multiplication by `x` is linear over exclusive-or: of two reductions, the polynomials cancel. -/
theorem xtime_xor (w : Width) (a b : Half) : xtime w (a ^^^ b) = xtime w a ^^^ xtime w b := by
  have h : (a ^^^ b).setWidth 17 <<< 1 = (a.setWidth 17 <<< 1) ^^^ (b.setWidth 17 <<< 1) := by
    rw [BitVec.setWidth_xor, BitVec.shiftLeft_xor_distrib]
  unfold xtime
  rw [h, BitVec.getLsbD_xor]
  cases (a.setWidth 17 <<< 1).getLsbD w.bits <;> cases (b.setWidth 17 <<< 1).getLsbD w.bits <;>
    simp <;> grind

theorem iterate_xtime_zero (w : Width) (n : Nat) : (xtime w)^[n] 0 = 0 :=
  Function.iterate_fixed (xtime_zero w) n

theorem iterate_xtime_xor (w : Width) (n : Nat) (a b : Half) :
    (xtime w)^[n] (a ^^^ b) = (xtime w)^[n] a ^^^ (xtime w)^[n] b :=
  Function.Semiconj₂.iterate (xtime_xor w) n a b

/-- The field polynomial has degree `w`. -/
theorem getLsbD_poly (h : w.bits ≤ i) : (poly w).getLsbD i = decide (i = w.bits) := by
  by_cases hi : i < 17
  · revert i
    cases w <;> decide
  · have hne : i ≠ w.bits := by rintro rfl; exact hi (by cases w <;> decide)
    rw [BitVec.getLsbD_of_ge _ _ (by omega), decide_eq_false hne]

/-- Multiplication by `x` is closed: the reduction clears bit `w`, and no higher bit is set. -/
theorem isElem_xtime (ha : IsElem w a) : IsElem w (xtime w a) := by
  rw [isElem_iff_getLsbD] at ha ⊢
  have hshift : ∀ k, w.bits < k → (a.setWidth 17 <<< 1).getLsbD k = false := fun k hk => by
    simp [ha (k - 1) (by omega)]
  unfold xtime
  generalize a.setWidth 17 <<< 1 = v at hshift ⊢
  intro k hk
  cases hbit : v.getLsbD w.bits <;> rcases hk.eq_or_lt with rfl | hlt
  · simp [hbit]
  · simp [hshift k hlt]
  · simp [hbit, getLsbD_poly]
  · simp [hshift k hlt, getLsbD_poly hk, hlt.ne']

theorem isElem_iterate_xtime (ha : IsElem w a) (n : Nat) : IsElem w ((xtime w)^[n] a) := by
  induction n with
  | zero => exact ha
  | succ n ih =>
    rw [Function.iterate_succ_apply']
    exact isElem_xtime ih

theorem isElem_pow (w : Width) (i : Nat) : IsElem w ((xtime w)^[i] 1) := isElem_iterate_xtime (isElem_one w) i

/-! ### The product of 41_field_arith.md R172 -/

/-- The loop commutes with multiplication of the multiplicand by `x`. -/
theorem clmulFrom_xtime (w : Width) (b : Half) (n i : Nat) (a r : Half) :
    clmulFrom w b n i (xtime w a) (xtime w r) = xtime w (clmulFrom w b n i a r) := by
  induction n generalizing i a r with
  | zero => rfl
  | succ n ih =>
    unfold clmulFrom
    rw [← ih, apply_ite (xtime w), xtime_xor]

theorem clmul_xtime (w : Width) (a b : Half) : clmul w (xtime w a) b = xtime w (clmul w a b) := by
  simpa only [clmul, xtime_zero] using clmulFrom_xtime w b w.bits 0 a 0

/-- The first `w` powers of `x` need no reduction. -/
theorem iterate_xtime_one_of_lt (h : i < w.bits) : (xtime w)^[i] 1 = BitVec.twoPow 16 i := by
  revert i
  cases w <;> decide

/-- The low `i + 1` bits: bit `i` above the low `i`. -/
theorem setWidth_succ_eq_xor (b : Half) (i : Nat) :
    (b.setWidth (i + 1)).setWidth 16 =
      if b.getLsbD i then (b.setWidth i).setWidth 16 ^^^ BitVec.twoPow 16 i else (b.setWidth i).setWidth 16 := by
  apply BitVec.eq_of_getLsbD_eq
  intro k hk
  obtain rfl | hik := eq_or_ne i k
  · split <;> simp_all
  · have hsucc : k < i + 1 ↔ k < i := by omega
    split <;> simp [hik, hsucc]

/-- The loop on multiplicand 1 collects the bits of the multiplier. -/
theorem clmulFrom_one (b : Half) (h : i + n ≤ w.bits) :
    clmulFrom w b n i ((xtime w)^[i] 1) ((b.setWidth i).setWidth 16) = (b.setWidth (i + n)).setWidth 16 := by
  induction n generalizing i with
  | zero => rfl
  | succ n ih =>
    have hi : i < w.bits := by omega
    have hw : w.bits ≤ 16 := by cases w <;> decide
    unfold clmulFrom
    rw [← Function.iterate_succ_apply' (xtime w), iterate_xtime_one_of_lt hi, ← setWidth_succ_eq_xor b i,
      ih (by omega), Nat.add_right_comm, Nat.add_assoc]

/-- 1 is the identity of the product. -/
theorem one_clmul (hb : IsElem w b) : clmul w 1 b = b := by
  have hzero : (b.setWidth 0).setWidth 16 = (0 : Half) := by simp [BitVec.of_length_zero]
  have hlow : (b.setWidth w.bits).setWidth 16 = b :=
    BitVec.eq_of_toNat_eq (by
      rw [BitVec.toNat_setWidth, BitVec.toNat_setWidth, Nat.mod_eq_of_lt hb, Nat.mod_eq_of_lt b.isLt])
  have h := clmulFrom_one b (Nat.zero_add w.bits).le
  rwa [hzero, Nat.zero_add, hlow] at h

/-- A power of `x` multiplies by shifting that many times. -/
theorem clmul_iterate_xtime (hb : IsElem w b) (i : Nat) : clmul w ((xtime w)^[i] 1) b = (xtime w)^[i] b := by
  have h : Function.Semiconj (clmul w · b) (xtime w) (xtime w) := fun a => clmul_xtime w a b
  rw [(h.iterate_right i).eq, one_clmul hb]

/-- Products of powers of `x` add the exponents. -/
theorem clmul_pow_pow (w : Width) (i j : Nat) :
    clmul w ((xtime w)^[i] 1) ((xtime w)^[j] 1) = (xtime w)^[i + j] 1 := by
  rw [clmul_iterate_xtime (isElem_pow w j), Function.iterate_add_apply]

theorem zero_clmul (w : Width) (b : Half) : clmul w 0 b = 0 := by
  have h : ∀ n i, clmulFrom w b n i 0 0 = 0 := fun n => by
    induction n with
    | zero => exact fun _ => rfl
    | succ n ih =>
      intro i
      have hr : (if b.getLsbD i then (0 : Half) ^^^ 0 else 0) = 0 := ite_self _
      rw [clmulFrom, xtime_zero, hr, ih]
  exact h _ _

/-! ### The order of `x` -/

theorem fieldLimit_pos (w : Width) : 0 < fieldLimit w := by cases w <;> decide

theorem fieldLimit_lt (w : Width) : fieldLimit w < 2 ^ w.bits := Nat.pred_lt (Nat.two_pow_pos _).ne'

/-- `x^n` by repeated squaring, for `n < 2^k`. -/
def powBySquaring (w : Width) : (k n : Nat) → Half
  | 0, _ => 1
  | k + 1, n =>
    let r := powBySquaring w k (n / 2)
    if n % 2 = 1 then xtime w (clmul w r r) else clmul w r r

theorem powBySquaring_eq (w : Width) {k n : Nat} (h : n < 2 ^ k) : powBySquaring w k n = (xtime w)^[n] 1 := by
  induction k generalizing n with
  | zero =>
    obtain rfl : n = 0 := by omega
    rfl
  | succ k ih =>
    simp only [powBySquaring]
    rw [ih (by omega), clmul_pow_pow, ← Function.iterate_succ_apply' (xtime w)]
    split <;> congr 2 <;> omega

/-- A period is minimal when no quotient of it by a prime is one. -/
theorem minimalPeriod_eq_of_not_isPeriodicPt_div_prime {α : Type} {f : α → α} {x : α}
    (hper : IsPeriodicPt f n x) (hdiv : ∀ p : Nat, p.Prime → p ∣ n → ¬ IsPeriodicPt f (n / p) x) :
    minimalPeriod f x = n := by
  obtain ⟨k, hk⟩ := hper.minimalPeriod_dvd
  by_contra hne
  have hp : k.minFac.Prime := Nat.minFac_prime fun h => hne (by rw [hk, h, Nat.mul_one])
  refine hdiv _ hp (hk ▸ k.minFac_dvd.mul_left _) ?_
  rw [hk, Nat.mul_div_assoc _ k.minFac_dvd]
  exact (Function.isPeriodicPt_minimalPeriod f x).mul_const _

/-- `q - 1` divides `2^16 - 1`, a product of Fermat primes. -/
theorem prime_dvd_fieldLimit {p : Nat} (hp : p.Prime) (h : p ∣ fieldLimit w) :
    p = 3 ∨ p = 5 ∨ p = 17 ∨ p = 257 := by
  have hfermat : p ∣ 3 * (5 * (17 * 257)) := h.trans (by cases w <;> decide)
  have hdvd {r : Nat} (hr : r.Prime) : p ∣ r → p = r := (Nat.prime_dvd_prime_iff_eq hp hr).1
  simp only [hp.dvd_mul] at hfermat
  exact hfermat.imp (hdvd (by norm_num)) (.imp (hdvd (by norm_num)) (.imp (hdvd (by norm_num)) (hdvd (by norm_num))))

/-- `x` has order `q - 1` (41_field_arith.md R173). -/
theorem minimalPeriod_xtime (w : Width) : minimalPeriod (xtime w) 1 = fieldLimit w := by
  refine minimalPeriod_eq_of_not_isPeriodicPt_div_prime ?_ fun p hp hdvd => ?_
  · rw [IsPeriodicPt, Function.IsFixedPt, ← powBySquaring_eq (k := w.bits) w (fieldLimit_lt w)]
    cases w <;> decide +kernel
  · have hlt : fieldLimit w / p < 2 ^ w.bits :=
      lt_of_le_of_lt (Nat.div_le_self _ _) (fieldLimit_lt w)
    rw [IsPeriodicPt, Function.IsFixedPt, ← powBySquaring_eq (k := w.bits) w hlt]
    obtain rfl | rfl | rfl | rfl := prime_dvd_fieldLimit hp hdvd
    · cases w <;> decide +kernel
    · cases w <;> decide +kernel
    · cases w <;> decide +kernel
    · cases w with
      | w8 => exact absurd hdvd (by decide)
      | w16 => decide +kernel

theorem isPeriodicPt_xtime (w : Width) : IsPeriodicPt (xtime w) (fieldLimit w) 1 :=
  minimalPeriod_xtime w ▸ Function.isPeriodicPt_minimalPeriod _ _

/-! ### The powers of `x` are the non-zero elements -/

/-- No power of `x` is 0, since a further power is 1. -/
theorem iterate_xtime_one_ne_zero (w : Width) (i : Nat) : (xtime w)^[i] 1 ≠ 0 := by
  intro h
  have hone : (xtime w)^[i * (fieldLimit w - 1) + i] 1 = 1 := by
    rw [← Nat.mul_succ, Nat.succ_eq_add_one, Nat.sub_add_cancel (fieldLimit_pos w)]
    exact (isPeriodicPt_xtime w).const_mul i
  rw [Function.iterate_add_apply, h, iterate_xtime_zero] at hone
  exact absurd hone (by decide)

/-- The first `q - 1` powers of `x` are distinct. -/
theorem iterate_xtime_one_inj (hi : i < fieldLimit w) (hj : j < fieldLimit w) :
    (xtime w)^[i] 1 = (xtime w)^[j] 1 ↔ i = j := by
  rw [← minimalPeriod_xtime w] at hi hj
  exact Function.iterate_eq_iterate_iff_of_lt_minimalPeriod hi hj

theorem IsElem.toNat_mem_Ico (ha : IsElem w a) (h0 : a ≠ 0) : a.toNat ∈ Finset.Ico 1 (2 ^ w.bits) :=
  Finset.mem_Ico.2 ⟨Nat.pos_of_ne_zero fun h => h0 (BitVec.eq_of_toNat_eq h), ha⟩

/-- Every non-zero element is a power of `x`: the first `q - 1` powers are as many as the non-zero elements. -/
theorem IsElem.exists_pow (ha : IsElem w a) (h0 : a ≠ 0) : ∃ i < fieldLimit w, a = (xtime w)^[i] 1 := by
  have hmaps : Set.MapsTo (fun i => ((xtime w)^[i] 1).toNat) (Finset.range (fieldLimit w))
      (Finset.Ico 1 (2 ^ w.bits)) := fun i _ =>
    (isElem_pow w i).toNat_mem_Ico (iterate_xtime_one_ne_zero w i)
  have hinj : Set.InjOn (fun i => ((xtime w)^[i] 1).toNat) (Finset.range (fieldLimit w)) := fun i hi j hj h =>
    (iterate_xtime_one_inj (Finset.mem_range.1 hi) (Finset.mem_range.1 hj)).1 (BitVec.eq_of_toNat_eq h)
  have hcard : (Finset.Ico 1 (2 ^ w.bits)).card ≤ (Finset.range (fieldLimit w)).card := by
    rw [Nat.card_Ico, Finset.card_range, fieldLimit]
  obtain ⟨i, hi, hia⟩ := Finset.surjOn_of_injOn_of_card_le _ hmaps hinj hcard (ha.toNat_mem_Ico h0)
  exact ⟨i, Finset.mem_range.1 hi, (BitVec.eq_of_toNat_eq hia).symm⟩

theorem IsElem.eq_zero_or_pow (ha : IsElem w a) : a = 0 ∨ ∃ i, a = (xtime w)^[i] 1 :=
  (eq_or_ne a 0).imp_right fun h0 => (ha.exists_pow h0).imp fun _ h => h.2

end Sys2Proof.Machine
end

section
/-! SUPPORT. The tables and the field operations by exponents of `x`: the entries of the tables (41_field_arith.md R173,
R174), the product by logarithms (R176), the field laws (R186), and inverse, quotient and powers (R177 to R179). -/

namespace Sys2Proof.Machine

variable {w : Width} {a b c : Half} {i : Nat}

/-! ### The tables -/

theorem xpow_eq_iterate (w : Width) (i : Nat) (a : Half) : xpow w i a = (xtime w)^[i] a := by
  induction i generalizing a with
  | zero => rfl
  | succ i ih => exact ih (xtime w a)

/-- The entries of the exponent table are the powers of `x`, at `q - 1` too. -/
theorem expTable_eq_iterate (hi : i ≤ fieldLimit w) : expTable w i = (xtime w)^[i] 1 := by
  unfold expTable
  split
  · exact xpow_eq_iterate w i 1
  · obtain rfl : i = fieldLimit w := by omega
    exact (isPeriodicPt_xtime w).eq.symm

/-- An index reduced modulo `q - 1`, as R176 and R179 form it, loses nothing. -/
theorem expTable_mod (w : Width) (n : Nat) : expTable w (n % (fieldSize w - 1)) = (xtime w)^[n] 1 := by
  have hlt : n % fieldLimit w < fieldLimit w := Nat.mod_lt _ (fieldLimit_pos w)
  exact (expTable_eq_iterate hlt.le).trans ((isPeriodicPt_xtime w).iterate_mod_apply n)

/-- The search ends at an index of the value looked for, which is among the `n` powers from `x` on. -/
theorem logFrom_spec (w : Width) {n k : Nat} (i : Nat) {x : Half} (hk : k < n) :
    ∃ m < n, logFrom w ((xtime w)^[k] x) n i x = i + m ∧ (xtime w)^[m] x = (xtime w)^[k] x := by
  induction n generalizing i x k with
  | zero => omega
  | succ n ih =>
    unfold logFrom
    split
    · next h => exact ⟨0, by omega, rfl, h⟩
    · next h =>
      obtain _ | k := k
      · exact absurd rfl h
      · obtain ⟨m, hm, hlog, hpow⟩ := ih (i + 1) (x := xtime w x) (k := k) (by omega)
        exact ⟨m + 1, by omega, by rw [Function.iterate_succ_apply, hlog]; omega, hpow⟩

/-- The logarithm of a power of `x` below `x^(q-1)` is its exponent. -/
theorem logTable_iterate (hi : i < fieldLimit w) : logTable w ((xtime w)^[i] 1) = i := by
  obtain ⟨m, hm, hlog, hpow⟩ := logFrom_spec w 0 (x := 1) hi
  rw [logTable, if_neg (iterate_xtime_one_ne_zero w i), hlog, Nat.zero_add]
  exact (iterate_xtime_one_inj hm hi).1 hpow

/-- A non-zero element is `x` to the power of its logarithm (41_field_arith.md R174). -/
theorem IsElem.log_spec (ha : IsElem w a) (h0 : a ≠ 0) :
    logTable w a < fieldLimit w ∧ (xtime w)^[logTable w a] 1 = a := by
  obtain ⟨i, hi, rfl⟩ := ha.exists_pow h0
  rw [logTable_iterate hi]
  exact ⟨hi, rfl⟩

/-! ### The product by exponents -/

/-- The product by logarithms is the polynomial product (41_field_arith.md R172, R176). -/
theorem gfMul_eq_clmul (ha : IsElem w a) (hb : IsElem w b) : gfMul w a b = clmul w a b := by
  unfold gfMul
  split
  · next h =>
    obtain rfl | h0 := eq_or_ne a 0
    · exact (zero_clmul w b).symm
    · obtain ⟨i, -, rfl⟩ := ha.exists_pow h0
      rw [h.resolve_left h0, clmul_iterate_xtime (isElem_zero w), iterate_xtime_zero]
  · next h =>
    obtain ⟨ha0, hb0⟩ := not_or.1 h
    obtain ⟨-, hla⟩ := ha.log_spec ha0
    obtain ⟨-, hlb⟩ := hb.log_spec hb0
    rw [expTable_mod, ← clmul_pow_pow, hla, hlb]

theorem gfMul_pow_pow (w : Width) (i j : Nat) :
    gfMul w ((xtime w)^[i] 1) ((xtime w)^[j] 1) = (xtime w)^[i + j] 1 := by
  rw [gfMul_eq_clmul (isElem_pow w i) (isElem_pow w j), clmul_pow_pow]

/-- Products are field elements, whatever the operands (41_field_arith.md R170). -/
theorem isElem_gfMul (w : Width) (a b : Half) : IsElem w (gfMul w a b) := by
  unfold gfMul
  split
  · exact isElem_zero w
  · rw [expTable_mod]
    exact isElem_pow w _

theorem isElem_gfPowIter (w : Width) (a : Half) : ∀ n, IsElem w (gfPowIter w a n)
  | 0 => isElem_one w
  | _ + 1 => isElem_gfMul w _ _

/-! ### The field laws (41_field_arith.md R186) -/

theorem gfMul_zero (w : Width) (a : Half) : gfMul w a 0 = 0 := if_pos (.inr rfl)

theorem zero_gfMul (w : Width) (a : Half) : gfMul w 0 a = 0 := if_pos (.inl rfl)

theorem gfMul_comm (w : Width) (a b : Half) : gfMul w a b = gfMul w b a :=
  if_congr or_comm rfl (by rw [Nat.add_comm])

theorem one_gfMul (ha : IsElem w a) : gfMul w 1 a = a := by
  rw [gfMul_eq_clmul (isElem_one w) ha, one_clmul ha]

theorem gfMul_one (ha : IsElem w a) : gfMul w a 1 = a := by
  rw [gfMul_comm, one_gfMul ha]

theorem gfMul_assoc (ha : IsElem w a) (hb : IsElem w b) (hc : IsElem w c) :
    gfMul w (gfMul w a b) c = gfMul w a (gfMul w b c) := by
  obtain rfl | ⟨i, rfl⟩ := ha.eq_zero_or_pow
  · simp only [zero_gfMul]
  obtain rfl | ⟨j, rfl⟩ := hb.eq_zero_or_pow
  · simp only [zero_gfMul, gfMul_zero]
  obtain rfl | ⟨k, rfl⟩ := hc.eq_zero_or_pow
  · simp only [gfMul_zero]
  simp only [gfMul_pow_pow, Nat.add_assoc]

/-- A power of `x` multiplies by shifting, which is linear. -/
theorem gfMul_xor (ha : IsElem w a) (hb : IsElem w b) (hc : IsElem w c) :
    gfMul w a (b ^^^ c) = gfMul w a b ^^^ gfMul w a c := by
  rw [gfMul_eq_clmul ha (hb.xor hc), gfMul_eq_clmul ha hb, gfMul_eq_clmul ha hc]
  obtain rfl | ⟨i, rfl⟩ := ha.eq_zero_or_pow
  · simp only [zero_clmul]
    exact BitVec.xor_zero.symm
  · rw [clmul_iterate_xtime (hb.xor hc), clmul_iterate_xtime hb, clmul_iterate_xtime hc, iterate_xtime_xor]

/-! ### Inverse and quotient (41_field_arith.md R177, R178) -/

theorem gfInv_zero (w : Width) : gfInv w 0 = .error .divideByZero := if_pos rfl

/-- The inverse of `x^i` is `x^(q-1-i)`. -/
theorem IsElem.exists_gfInv (ha : IsElem w a) (h0 : a ≠ 0) :
    ∃ r, gfInv w a = .ok r ∧ IsElem w r ∧ gfMul w a r = 1 := by
  obtain ⟨i, hi, rfl⟩ := ha.exists_pow h0
  refine ⟨(xtime w)^[fieldLimit w - i] 1, ?_, isElem_pow w _, ?_⟩
  · rw [gfInv, if_neg h0, logTable_iterate hi]
    exact congrArg Except.ok (expTable_eq_iterate (Nat.sub_le _ _))
  · rw [gfMul_pow_pow, Nat.add_sub_cancel' hi.le]
    exact isPeriodicPt_xtime w

theorem eq_of_gfMul_eq_one (ha : IsElem w a) (hb : IsElem w b) (hc : IsElem w c) (hab : gfMul w a b = 1)
    (hac : gfMul w a c = 1) : b = c :=
  calc b = gfMul w b (gfMul w a c) := by rw [hac, gfMul_one hb]
    _ = gfMul w (gfMul w a b) c := by rw [← gfMul_assoc hb ha hc, gfMul_comm w b a]
    _ = c := by rw [hab, one_gfMul hc]

theorem gfDiv_zero (w : Width) (a : Half) : gfDiv w a 0 = .error .divideByZero := by
  rw [gfDiv, gfInv_zero]

theorem IsElem.exists_gfDiv (ha : IsElem w a) (hb : IsElem w b) (h0 : b ≠ 0) :
    ∃ r, gfDiv w a b = .ok r ∧ IsElem w r ∧ gfMul w r b = a := by
  obtain ⟨c, hinv, hc, hmul⟩ := hb.exists_gfInv h0
  refine ⟨gfMul w a c, by rw [gfDiv, hinv], isElem_gfMul w a c, ?_⟩
  rw [gfMul_assoc ha hc hb, gfMul_comm w c b, hmul, gfMul_one ha]

/-! ### Powers (41_field_arith.md R179) -/

/-- The closed form multiplies the exponent of a non-zero element by `n`. -/
theorem gfPow_eq_iterate (h0 : a ≠ 0) (n : Nat) :
    gfPow w a n = (xtime w)^[logTable w a * n] 1 := by
  rw [gfPow, if_neg h0]
  split
  · next h => rw [h, Nat.mul_zero, Function.iterate_zero_apply]
  · exact expTable_mod w _

theorem gfPowIter_eq_iterate (ha : IsElem w a) (h0 : a ≠ 0) (n : Nat) :
    gfPowIter w a n = (xtime w)^[logTable w a * n] 1 := by
  obtain ⟨-, hlog⟩ := ha.log_spec h0
  induction n with
  | zero => rfl
  | succ n ih => rw [gfPowIter, ih, Nat.mul_succ, ← gfMul_pow_pow, hlog]

/-- The two forms of 41_field_arith.md R179 agree (log 10). -/
theorem gfPow_eq_gfPowIter (ha : IsElem w a) (n : Nat) : gfPow w a n = gfPowIter w a n := by
  obtain rfl | h0 := eq_or_ne a 0
  · cases n with
    | zero => rfl
    | succ n => exact (gfMul_zero w _).symm
  · rw [gfPow_eq_iterate h0, gfPowIter_eq_iterate ha h0]

theorem gfPowIter_add (ha : IsElem w a) (m n : Nat) :
    gfPowIter w a (m + n) = gfMul w (gfPowIter w a m) (gfPowIter w a n) := by
  induction n with
  | zero => exact (gfMul_one (isElem_gfPowIter w a m)).symm
  | succ n ih =>
    rw [← Nat.add_assoc, gfPowIter, ih, gfMul_assoc (isElem_gfPowIter w a m) (isElem_gfPowIter w a n) ha]
    rfl

theorem gfPow_fieldLimit (h0 : a ≠ 0) : gfPow w a (fieldLimit w) = 1 := by
  rw [gfPow_eq_iterate h0]
  exact (isPeriodicPt_xtime w).const_mul _

end Sys2Proof.Machine
end

section
/-! PROOFS. The field arithmetic family: the tables (41_field_arith.md R173, R174), the field laws (R186), and the
completions of the field commands (R180 to R185). -/

namespace Sys2Proof.Machine

/-! ### The tables and the laws -/

/-- Settles O16: the entries are the powers of `x`, and a product with `2 = x` is one more shift. -/
theorem expTableIsPowersOfTwo : Obligations.ExpTableIsPowersOfTwo := by
  intro w
  refine ⟨expTable_eq_iterate (Nat.zero_le _), (expTable_eq_iterate le_rfl).trans (isPeriodicPt_xtime w), ?_⟩
  intro i hi hlim
  have htwo : (2 : Half) = (xtime w)^[1] 1 := by cases w <;> decide
  have hi' : i ≤ fieldLimit w := hlim.trans (Nat.sub_le_sub_left (by decide) _)
  rw [expTable_eq_iterate hi', expTable_eq_iterate ((Nat.sub_le _ _).trans hi'), htwo, clmul_pow_pow,
    Nat.sub_add_cancel hi]

/-- Settles O17: a non-zero element is `x` to its logarithm, and the powers below `x^(q-1)` are distinct. -/
theorem logTableInvertsExpTable : Obligations.LogTableInvertsExpTable := by
  intro w
  have hlast {i : Nat} : i ≤ 2 ^ w.bits - 2 ↔ i < fieldLimit w := by
    have hpos := fieldLimit_pos w
    unfold fieldLimit at *
    omega
  refine ⟨rfl, fun a ha h0 => ?_⟩
  obtain ⟨hlt, hlog⟩ := ha.log_spec h0
  refine ⟨hlast.2 hlt, (expTable_eq_iterate hlt.le).trans hlog, fun i hi hexp => ?_⟩
  rw [hlast] at hi
  rw [← hexp, expTable_eq_iterate hi.le, logTable_iterate hi]

/-- Settles O18, law by law. -/
theorem fieldLaws : Obligations.FieldLaws := by
  intro w a b c ha hb hc
  refine ⟨⟨ha.xor hb, isElem_gfMul w a b⟩, ⟨BitVec.xor_comm a b, gfMul_comm w a b⟩,
    ⟨BitVec.xor_assoc a b c, gfMul_assoc ha hb hc⟩, gfMul_xor ha hb hc,
    ⟨BitVec.xor_zero, gfMul_one ha, gfMul_zero w a⟩, fun h0 => ?_, fun m n => ?_, gfPow_fieldLimit⟩
  · obtain ⟨r, hinv, hr, hmul⟩ := ha.exists_gfInv h0
    exact ⟨r, hinv, hr, hmul, fun x hx hax => eq_of_gfMul_eq_one ha hx hr hax hmul⟩
  · simp only [gfPow_eq_gfPowIter ha, gfPowIter_add ha]

/-! ### The commands -/

theorem complete_gfResult_ok (s : State) (r : Half) :
    complete s (gfResult s (.ok r)) = .next (afterSuccess { s with gfR := r }) := rfl

theorem complete_gfResult_error (s : State) (e : CmdError) :
    complete s (gfResult s (.error e)) = .next (afterFailure e.code s) := rfl

theorem State.opA_eq_lowPart (s : State) (w : Width) : s.opA w = lowPart w s.gfA := truncTo_eq_lowPart w s.gfA

theorem State.opB_eq_lowPart (s : State) (w : Width) : s.opB w = lowPart w s.gfB := truncTo_eq_lowPart w s.gfB

/-- Settles O11: the low part of an exclusive-or is that of the low parts. -/
theorem gfAddResult : Obligations.GfAddResult := by
  intro w s
  rw [lowPart_xor, ← s.opA_eq_lowPart, ← s.opB_eq_lowPart]
  exact complete_gfResult_ok s _

/-- Settles O12: the product by logarithms is the polynomial product. -/
theorem gfMulResult : Obligations.GfMulResult := by
  intro w s
  rw [← gfMul_eq_clmul (isElem_lowPart w _) (isElem_lowPart w _), ← s.opA_eq_lowPart, ← s.opB_eq_lowPart]
  exact complete_gfResult_ok s _

theorem exec_gfDiv (w : Width) (s : State) :
    exec (.gfDiv w) s = complete s (gfResult s (gfDiv w (lowPart w s.gfA) (lowPart w s.gfB))) := by
  rw [← s.opA_eq_lowPart, ← s.opB_eq_lowPart]
  rfl

theorem exec_gfInv (w : Width) (s : State) :
    exec (.gfInv w) s = complete s (gfResult s (gfInv w (lowPart w s.gfA))) := by
  rw [← s.opA_eq_lowPart]
  rfl

/-- Settles O13: the quotient times the divisor is the dividend. -/
theorem gfDivResult : Obligations.GfDivResult := by
  intro w s
  rw [exec_gfDiv]
  constructor
  · intro h0
    have hb := isElem_lowPart w s.gfB
    obtain ⟨r, hdiv, hr, hmul⟩ := (isElem_lowPart w s.gfA).exists_gfDiv hb h0
    rw [gfMul_eq_clmul hr hb] at hmul
    exact ⟨r, hr, hmul, by rw [hdiv, complete_gfResult_ok]⟩
  · intro h0
    rw [h0, gfDiv_zero, complete_gfResult_error]
    rfl

/-- Settles O14: the table's inverse times the operand is 1. -/
theorem gfInvResult : Obligations.GfInvResult := by
  intro w s
  rw [exec_gfInv]
  constructor
  · intro h0
    have ha := isElem_lowPart w s.gfA
    obtain ⟨r, hinv, hr, hmul⟩ := ha.exists_gfInv h0
    rw [gfMul_eq_clmul ha hr] at hmul
    exact ⟨r, hr, hmul, by rw [hinv, complete_gfResult_ok]⟩
  · intro h0
    rw [h0, gfInv_zero, complete_gfResult_error]
    rfl

/-- Settles O15: the closed form is the repeated product. -/
theorem gfPowResult : Obligations.GfPowResult := by
  intro w s
  rw [← gfPow_eq_gfPowIter (isElem_lowPart w _), ← s.opA_eq_lowPart]
  exact complete_gfResult_ok s _

end Sys2Proof.Machine
end

section
/-! SUPPORT. Exclusive-or sums, the dot product and the matrix product (42_matrix_engine.md R203): they are bilinear, and
the product is associative (R217). A matrix is a function of row and column, and the value functions are tied to it by
`Mat.ofFn`. -/

namespace Sys2Proof.Machine

variable {w : Width} {l m n : Nat}

/-! ### Sums -/

theorem xorSum_eq_zero {f : Nat → Half} (h : ∀ k < n, f k = 0) : xorSum n f = 0 := by
  induction n with
  | zero => rfl
  | succ n ih =>
    rw [xorSum_succ, ih fun k hk => h k (Nat.lt_succ_of_lt hk), h n (Nat.lt_succ_self n)]
    exact BitVec.xor_self

/-- A sum with one term. -/
theorem xorSum_eq_term {f : Nat → Half} {i : Nat} (hi : i < n) (h : ∀ k < n, k ≠ i → f k = 0) : xorSum n f = f i := by
  induction n with
  | zero => omega
  | succ n ih =>
    rw [xorSum_succ]
    obtain hlt | rfl := Nat.lt_succ_iff_lt_or_eq.1 hi
    · rw [ih hlt fun k hk => h k (Nat.lt_succ_of_lt hk), h n (Nat.lt_succ_self n) hlt.ne']
      exact BitVec.xor_zero
    · rw [xorSum_eq_zero fun k hk => h k (Nat.lt_succ_of_lt hk) hk.ne]
      exact BitVec.zero_xor

theorem xorSum_xor (n : Nat) (f g : Nat → Half) :
    xorSum n (fun k => f k ^^^ g k) = xorSum n f ^^^ xorSum n g := by
  induction n with
  | zero => exact BitVec.xor_self.symm
  | succ n ih => simp only [xorSum_succ, ih]; ac_rfl

theorem xorSum_comm (n m : Nat) (f : Nat → Nat → Half) :
    xorSum n (fun i => xorSum m fun j => f i j) = xorSum m fun j => xorSum n fun i => f i j := by
  induction n with
  | zero => exact (xorSum_eq_zero fun _ _ => rfl).symm
  | succ n ih => simp only [xorSum_succ, ih, xorSum_xor]

theorem xorSum_add (n m : Nat) (f : Nat → Half) :
    xorSum (n + m) f = xorSum n f ^^^ xorSum m fun k => f (n + k) := by
  induction m with
  | zero => exact BitVec.xor_zero.symm
  | succ m ih => rw [← Nat.add_assoc, xorSum_succ, xorSum_succ, ih, BitVec.xor_assoc]

theorem isElem_xorSum {f : Nat → Half} (h : ∀ k, IsElem w (f k)) (n : Nat) : IsElem w (xorSum n f) := by
  induction n with
  | zero => exact isElem_zero w
  | succ n ih => exact ih.xor (h n)

theorem gfMul_xorSum {a : Half} {f : Nat → Half} (ha : IsElem w a) (h : ∀ k, IsElem w (f k)) (n : Nat) :
    gfMul w a (xorSum n f) = xorSum n fun k => gfMul w a (f k) := by
  induction n with
  | zero => exact gfMul_zero w a
  | succ n ih => rw [xorSum_succ, xorSum_succ, gfMul_xor ha (isElem_xorSum h n) (h n), ih]

/-! ### The dot product -/

/-- Every entry of `x` is a field element. -/
def IsVec (w : Width) (x : Nat → Half) : Prop := ∀ k, IsElem w (x k)

/-- Row `i` of the identity matrix, which is its column `i` too (42_matrix_engine.md R202). -/
def unitVec (i k : Nat) : Half := if i = k then 1 else 0

variable {a b x y : Nat → Half} {c : Half}

theorem unitVec_self (i : Nat) : unitVec i i = 1 := if_pos rfl

theorem unitVec_of_ne {i k : Nat} (h : i ≠ k) : unitVec i k = 0 := if_neg h

theorem unitVec_comm (i k : Nat) : unitVec i k = unitVec k i := if_congr eq_comm rfl rfl

theorem isVec_unitVec (w : Width) (i : Nat) : IsVec w (unitVec i) := fun k => by
  unfold unitVec
  split
  · exact isElem_one w
  · exact isElem_zero w

theorem IsVec.xor (hx : IsVec w x) (hy : IsVec w y) : IsVec w fun k => x k ^^^ y k := fun k => (hx k).xor (hy k)

theorem isElem_dot (w : Width) (n : Nat) (a x : Nat → Half) : IsElem w (dot w n a x) :=
  isElem_xorSum (fun _ => isElem_gfMul w _ _) n

theorem dot_comm (w : Width) (n : Nat) (a x : Nat → Half) : dot w n a x = dot w n x a :=
  xorSum_congr fun _ _ => gfMul_comm w _ _

theorem dot_congr_row (h : ∀ k < n, a k = b k) : dot w n a x = dot w n b x := dot_congr h fun _ _ => rfl

theorem dot_eq_zero (h : ∀ k < n, x k = 0) : dot w n a x = 0 :=
  xorSum_eq_zero fun k hk => by rw [h k hk, gfMul_zero]

theorem dot_xor (ha : IsVec w a) (hx : IsVec w x) (hy : IsVec w y) (n : Nat) :
    dot w n a (fun k => x k ^^^ y k) = dot w n a x ^^^ dot w n a y :=
  (xorSum_congr fun k _ => gfMul_xor (ha k) (hx k) (hy k)).trans (xorSum_xor n _ _)

theorem xor_dot (ha : IsVec w a) (hb : IsVec w b) (hx : IsVec w x) (n : Nat) :
    dot w n (fun k => a k ^^^ b k) x = dot w n a x ^^^ dot w n b x := by
  rw [dot_comm, dot_xor hx ha hb, dot_comm w n x a, dot_comm w n x b]

theorem gfMul_dot (hc : IsElem w c) (ha : IsVec w a) (hx : IsVec w x) (n : Nat) :
    dot w n (fun k => gfMul w c (a k)) x = gfMul w c (dot w n a x) :=
  (xorSum_congr fun k _ => gfMul_assoc hc (ha k) (hx k)).trans
    (gfMul_xorSum hc (fun _ => isElem_gfMul w _ _) n).symm

theorem unitVec_dot (hx : IsVec w x) {i : Nat} (hi : i < n) : dot w n (unitVec i) x = x i := by
  rw [dot, xorSum_eq_term hi fun k _ hk => by rw [unitVec_of_ne hk.symm, zero_gfMul], unitVec_self, one_gfMul (hx i)]

theorem dot_unitVec (ha : IsVec w a) {i : Nat} (hi : i < n) : dot w n a (unitVec i) = a i := by
  rw [dot_comm, unitVec_dot ha hi]

theorem dot_add (w : Width) (n m : Nat) (a x : Nat → Half) :
    dot w (n + m) a x = dot w n a x ^^^ dot w m (fun k => a (n + k)) (fun k => x (n + k)) :=
  xorSum_add n m _

/-- A row times a matrix and a vector, associated either way. -/
theorem dot_dot {B : Nat → Nat → Half} (ha : IsVec w a) (hB : ∀ k, IsVec w (B k)) (hx : IsVec w x) (m l : Nat) :
    dot w m a (fun k => dot w l (B k) x) = dot w l (fun j => dot w m a fun k => B k j) x := by
  have hleft (k : Nat) : gfMul w (a k) (dot w l (B k) x) = xorSum l fun j => gfMul w (gfMul w (a k) (B k j)) (x j) := by
    rw [dot, gfMul_xorSum (ha k) fun _ => isElem_gfMul w _ _]
    exact xorSum_congr fun j _ => (gfMul_assoc (ha k) (hB k j) (hx j)).symm
  have hright (j : Nat) :
      gfMul w (dot w m a fun k => B k j) (x j) = xorSum m fun k => gfMul w (gfMul w (a k) (B k j)) (x j) := by
    rw [dot, gfMul_comm, gfMul_xorSum (hx j) fun _ => isElem_gfMul w _ _]
    exact xorSum_congr fun k _ => gfMul_comm w _ _
  calc dot w m a (fun k => dot w l (B k) x)
      = xorSum m fun k => xorSum l fun j => gfMul w (gfMul w (a k) (B k j)) (x j) := xorSum_congr fun k _ => hleft k
    _ = xorSum l fun j => xorSum m fun k => gfMul w (gfMul w (a k) (B k j)) (x j) := xorSum_comm m l _
    _ = dot w l (fun j => dot w m a fun k => B k j) x := xorSum_congr fun j _ => (hright j).symm

/-! ### The matrix product -/

variable {f g h : Nat → Nat → Half}

theorem identity_eq (n : Nat) : identity n = Mat.ofFn n n unitVec := rfl

theorem Mat.eq_of_ofFn_eq (e : Mat.ofFn n m f = Mat.ofFn n m g) {r c : Nat} (hr : r < n) (hc : c < m) :
    f r c = g r c := by
  rw [← Mat.at_ofFn n m f r c hr hc, e, Mat.at_ofFn n m g r c hr hc]

theorem matMul_of_ne {A B : Mat} (h : A.cols ≠ B.rows) : matMul w A B = .error .dimensionMismatch := if_pos h

theorem matMul_ofFn (w : Width) (n m l : Nat) (f g : Nat → Nat → Half) :
    matMul w (Mat.ofFn n m f) (Mat.ofFn m l g) = .ok (Mat.ofFn n l fun i j => dot w m (f i) fun k => g k j) :=
  (if_neg (not_not.2 rfl)).trans <| congrArg Except.ok <| Mat.ofFn_congr fun i hi j hj =>
    dot_congr (fun k hk => Mat.at_ofFn n m f i k hi hk) fun k hk => Mat.at_ofFn m l g k j hk hj

/-- The product is associative (42_matrix_engine.md R217). -/
theorem matMul_assoc (hf : ∀ r, IsVec w (f r)) (hg : ∀ r, IsVec w (g r)) (hh : ∀ r, IsVec w (h r)) (n m k l : Nat) :
    ∃ AB BC ABC, matMul w (Mat.ofFn n m f) (Mat.ofFn m k g) = .ok AB ∧
      matMul w (Mat.ofFn m k g) (Mat.ofFn k l h) = .ok BC ∧
      matMul w AB (Mat.ofFn k l h) = .ok ABC ∧ matMul w (Mat.ofFn n m f) BC = .ok ABC := by
  refine ⟨_, _, _, matMul_ofFn w n m k f g, matMul_ofFn w m k l g h, matMul_ofFn w n k l _ h, ?_⟩
  rw [matMul_ofFn]
  exact congrArg Except.ok <| Mat.ofFn_congr fun r _ c _ => dot_dot (hf r) hg (fun t => hh t c) m k

/-- The identity is neutral on the left (42_matrix_engine.md R217). -/
theorem matMul_identity_left (hf : ∀ r, IsVec w (f r)) (n m : Nat) :
    matMul w (identity n) (Mat.ofFn n m f) = .ok (Mat.ofFn n m f) := by
  rw [identity_eq, matMul_ofFn]
  exact congrArg Except.ok <| Mat.ofFn_congr fun r hr c _ => unitVec_dot (fun k => hf k c) hr

theorem matMul_eq_identity_iff :
    matMul w (Mat.ofFn n n f) (Mat.ofFn n n g) = .ok (identity n) ↔
      ∀ r < n, ∀ c < n, dot w n (f r) (fun k => g k c) = unitVec r c := by
  rw [matMul_ofFn, identity_eq, Except.ok.injEq]
  exact ⟨fun e r hr c hc => Mat.eq_of_ofFn_eq e hr hc, Mat.ofFn_congr⟩

end Sys2Proof.Machine
end

section
/-! SUPPORT. Gauss-Jordan inversion (42_matrix_engine.md R205 to R209). Every row operation keeps the solutions of
`W · z = 0`, where `W` starts as `[A | I]`. A run that ends with `[I | R]` therefore shows `A · x = y ↔ R · y = x`, and one
that finds no pivot shows a non-zero `x` with `A · x = 0`. -/

namespace Sys2Proof.Machine

variable {w : Width} {n p c r j : Nat} {e : Half} {W : List (List Half)} {A : Nat → Nat → Half} {x y z : Nat → Half}

/-! ### The row operations -/

theorem gfMul_eq_zero_iff {a b : Half} : gfMul w a b = 0 ↔ a = 0 ∨ b = 0 := by
  unfold gfMul
  split
  · next h => exact iff_of_true rfl h
  · next h =>
    rw [expTable_mod]
    exact iff_of_false (iterate_xtime_one_ne_zero w _) h

/-- A cell of a table of elements is an element, outside the table too. -/
theorem isElem_cell_tabulate {m : Nat} {f : Nat → Nat → Half} (h : ∀ r < n, ∀ j < m, IsElem w (f r j)) (r j : Nat) :
    IsElem w (cell (tabulate n m f) r j) := by
  by_cases hin : r < n ∧ j < m
  · obtain ⟨hr, hj⟩ := hin
    rw [cell_tabulate n m f r j hr hj]
    exact h r hr j hj
  · have hzero : cell (tabulate n m f) r j = 0 := by
      by_cases hr : r < n
      · simp_all [cell, tabulate]
      · simp [cell, tabulate, hr]
    rw [hzero]
    exact isElem_zero w

theorem cell_swapRows (hr : r < n) (hj : j < 2 * n) :
    cell (swapRows n p c W) r j = cell W (Equiv.swap c p r) j := by
  rw [swapRows, cell_tabulate _ _ _ r j hr hj, Equiv.swap_apply_def]

theorem cell_scaleRow (hr : r < n) (hj : j < 2 * n) :
    cell (scaleRow w n c e W) r j = if r = c then gfMul w e (cell W c j) else cell W r j :=
  cell_tabulate _ _ _ r j hr hj

/-- A row whose entry is 0 already is no special case: it has 0 times the pivot row added. -/
theorem cell_eliminate (hr : r < n) (hj : j < 2 * n) :
    cell (eliminate w n c W) r j =
      if r = c then cell W r j else cell W r j ^^^ gfMul w (cell W r c) (cell W c j) := by
  rw [eliminate, cell_tabulate _ _ _ r j hr hj]
  by_cases hrc : r = c
  · rw [if_pos (.inl hrc), if_pos hrc]
  by_cases h0 : cell W r c = 0
  · rw [if_pos (.inr h0), if_neg hrc, h0, zero_gfMul]
    exact BitVec.xor_zero.symm
  · rw [if_neg (not_or.2 ⟨hrc, h0⟩), if_neg hrc]

/-! ### The equations of the rows -/

/-- `W · z = 0`, for the `n` rows of length `2n` of the elimination. -/
def Solves (w : Width) (n : Nat) (W : List (List Half)) (z : Nat → Half) : Prop :=
  ∀ r < n, dot w (2 * n) (cell W r) z = 0

theorem swap_lt (hp : p < n) (hc : c < n) (hr : r < n) : Equiv.swap c p r < n := by
  rw [Equiv.swap_apply_def]
  split_ifs <;> assumption

theorem dot_swapRows (hr : r < n) :
    dot w (2 * n) (cell (swapRows n p c W) r) z = dot w (2 * n) (cell W (Equiv.swap c p r)) z :=
  dot_congr_row fun _ hj => cell_swapRows hr hj

theorem dot_scaleRow (hW : ∀ r, IsVec w (cell W r)) (he : IsElem w e) (hz : IsVec w z) (hr : r < n) :
    dot w (2 * n) (cell (scaleRow w n c e W) r) z =
      if r = c then gfMul w e (dot w (2 * n) (cell W c) z) else dot w (2 * n) (cell W r) z := by
  rw [dot_congr_row fun j hj => cell_scaleRow hr hj]
  split
  · exact gfMul_dot he (hW c) hz _
  · rfl

theorem dot_eliminate (hW : ∀ r, IsVec w (cell W r)) (hz : IsVec w z) (hr : r < n) :
    dot w (2 * n) (cell (eliminate w n c W) r) z =
      if r = c then dot w (2 * n) (cell W r) z
      else dot w (2 * n) (cell W r) z ^^^ gfMul w (cell W r c) (dot w (2 * n) (cell W c) z) := by
  rw [dot_congr_row fun j hj => cell_eliminate hr hj]
  split
  · rfl
  · rw [xor_dot (hW r) (fun _ => isElem_gfMul w _ _) hz, gfMul_dot (hW r c) (hW c) hz]

theorem solves_swapRows (hp : p < n) (hc : c < n) : Solves w n (swapRows n p c W) z ↔ Solves w n W z := by
  constructor
  · intro h r hr
    simpa only [dot_swapRows (swap_lt hp hc hr), Equiv.swap_apply_self] using h _ (swap_lt hp hc hr)
  · intro h r hr
    rw [dot_swapRows hr]
    exact h _ (swap_lt hp hc hr)

theorem solves_scaleRow (hW : ∀ r, IsVec w (cell W r)) (he : IsElem w e) (h0 : e ≠ 0) (hz : IsVec w z) :
    Solves w n (scaleRow w n c e W) z ↔ Solves w n W z := by
  refine forall₂_congr fun r hr => ?_
  rw [dot_scaleRow hW he hz hr]
  split
  · next hrc => rw [gfMul_eq_zero_iff, or_iff_right h0, hrc]
  · rfl

/-- The pivot row is kept, and where its equation holds, elimination changes no other row's equation. -/
theorem solves_eliminate (hW : ∀ r, IsVec w (cell W r)) (hc : c < n) (hz : IsVec w z) :
    Solves w n (eliminate w n c W) z ↔ Solves w n W z := by
  have hkeep (hrow : dot w (2 * n) (cell W c) z = 0) (r : Nat) (hr : r < n) :
      dot w (2 * n) (cell (eliminate w n c W) r) z = dot w (2 * n) (cell W r) z := by
    rw [dot_eliminate hW hz hr, hrow, gfMul_zero]
    exact ite_eq_left_iff.2 fun _ => BitVec.xor_zero
  constructor
  · intro h
    have hrow := h c hc
    rw [dot_eliminate hW hz hc, if_pos rfl] at hrow
    exact fun r hr => hkeep hrow r hr ▸ h r hr
  · intro h r hr
    rw [hkeep (h c hc) r hr]
    exact h r hr

/-! ### The loop invariant -/

/-- The invariant of the loop at pivot column `c`: the columns before `c` are those of the identity, and the solutions
are those of `[A | I]`. -/
structure ReducedTo (w : Width) (n : Nat) (A : Nat → Nat → Half) (c : Nat) (W : List (List Half)) : Prop where
  isElem : ∀ r, IsVec w (cell W r)
  unit : ∀ r < n, ∀ k < c, cell W r k = unitVec r k
  solves : ∀ z, IsVec w z → (Solves w n W z ↔ Solves w n (augment (Mat.ofFn n n A) n) z)

theorem ReducedTo.swapRows (h : ReducedTo w n A c W) (hp : p < n) (hcp : c ≤ p) :
    ReducedTo w n A c (swapRows n p c W) where
  isElem := isElem_cell_tabulate fun _ _ _ _ => h.isElem _ _
  unit r hr k hk := by
    have hfix : Equiv.swap c p k = k := Equiv.swap_apply_of_ne_of_ne hk.ne (hk.trans_le hcp).ne
    rw [cell_swapRows hr (by omega), h.unit _ (swap_lt hp (by omega) hr) k hk]
    exact if_congr (Equiv.swap_apply_eq_iff.trans (by rw [hfix])) rfl rfl
  solves z hz := (solves_swapRows hp (by omega)).trans (h.solves z hz)

theorem ReducedTo.scaleRow (h : ReducedTo w n A c W) (hc : c < n) (he : IsElem w e) (h0 : e ≠ 0) :
    ReducedTo w n A c (scaleRow w n c e W) where
  isElem := isElem_cell_tabulate fun r _ j _ => by
    split
    · exact isElem_gfMul w _ _
    · exact h.isElem r j
  unit r hr k hk := by
    rw [cell_scaleRow hr (by omega)]
    split
    · next hrc => rw [h.unit c hc k hk, hrc, unitVec_of_ne hk.ne', gfMul_zero]
    · exact h.unit r hr k hk
  solves z hz := (solves_scaleRow h.isElem he h0 hz).trans (h.solves z hz)

theorem ReducedTo.eliminate (h : ReducedTo w n A c W) (hc : c < n) (h1 : cell W c c = 1) :
    ReducedTo w n A (c + 1) (eliminate w n c W) where
  isElem := isElem_cell_tabulate fun r _ j _ => by
    split
    · exact h.isElem r j
    · exact (h.isElem r j).xor (isElem_gfMul w _ _)
  unit r hr k hk := by
    rw [cell_eliminate hr (by omega)]
    obtain hlt | rfl := Nat.lt_succ_iff_lt_or_eq.1 hk
    · rw [h.unit r hr k hlt, h.unit c hc k hlt, unitVec_of_ne hlt.ne', gfMul_zero]
      exact ite_eq_left_iff.2 fun _ => BitVec.xor_zero
    · split
      · next hrk => rw [hrk, h1, unitVec_self]
      · next hrk =>
        rw [h1, gfMul_one (h.isElem r k), unitVec_of_ne hrk]
        exact BitVec.xor_self
  solves z hz := (solves_eliminate h.isElem hc hz).trans (h.solves z hz)

/-! ### The loop -/

theorem pivotRow_eq_some (h : pivotRow n c W = some p) : p < n ∧ c ≤ p ∧ cell W p c ≠ 0 := by
  have hp := List.find?_some h
  simp only [Bool.and_eq_true, decide_eq_true_eq, bne_iff_ne] at hp
  exact ⟨List.mem_range.1 (List.mem_of_find?_eq_some h), hp⟩

theorem pivotRow_eq_none (h : pivotRow n c W = none) (hr : r < n) (hcr : c ≤ r) : cell W r c = 0 := by
  have hr0 := List.find?_eq_none.1 h r (List.mem_range.2 hr)
  simpa [hcr] using hr0

/-- One pivot column: it is cleared, or has no pivot. The pivot's inverse exists, since the pivot is not 0. -/
theorem ReducedTo.gaussStep (h : ReducedTo w n A c W) (hc : c < n) :
    (∃ W', gaussStep w n c W = .ok W' ∧ ReducedTo w n A (c + 1) W') ∨
      gaussStep w n c W = .error .matrixSingular ∧ ∀ r < n, c ≤ r → cell W r c = 0 := by
  unfold Machine.gaussStep
  split
  · next hp => exact .inr ⟨rfl, fun r hr hcr => pivotRow_eq_none hp hr hcr⟩
  · next p hp =>
    obtain ⟨hpn, hcp, h0⟩ := pivotRow_eq_some hp
    have hpivot : cell (Machine.swapRows n p c W) c c = cell W p c := by
      rw [cell_swapRows hc (by omega), Equiv.swap_apply_left]
    obtain ⟨e, hinv, he, hmul⟩ := (h.isElem p c).exists_gfInv h0
    have he0 : e ≠ 0 := by
      rintro rfl
      rw [gfMul_zero] at hmul
      exact absurd hmul (by decide)
    rw [hpivot, hinv]
    refine .inl ⟨_, rfl, ((h.swapRows hpn hcp).scaleRow hc he he0).eliminate hc ?_⟩
    rw [cell_scaleRow hc (by omega), if_pos rfl, hpivot, gfMul_comm, hmul]

/-- Column `c` above the diagonal. -/
def columnAbove (W : List (List Half)) (c k : Nat) : Half := if k < c then cell W k c else 0

/-- The combination of columns that is 0 when column `c` has no pivot: column `c` and what it takes of those before. -/
def kernelVec (W : List (List Half)) (c k : Nat) : Half := columnAbove W c k ^^^ unitVec c k

theorem kernelVec_self (W : List (List Half)) (c : Nat) : kernelVec W c c = 1 := by
  rw [kernelVec, columnAbove, if_neg (lt_irrefl c), unitVec_self]
  exact BitVec.zero_xor

theorem ReducedTo.isVec_columnAbove (h : ReducedTo w n A c W) : IsVec w (columnAbove W c) := fun k => by
  unfold columnAbove
  split
  · exact h.isElem k c
  · exact isElem_zero w

theorem ReducedTo.isVec_kernelVec (h : ReducedTo w n A c W) : IsVec w (kernelVec W c) :=
  h.isVec_columnAbove.xor (isVec_unitVec w c)

/-- The columns before `c` are those of the identity, so they combine to column `c`, where it has no pivot. -/
theorem ReducedTo.dot_kernelVec (h : ReducedTo w n A c W) (hc : c < n) (h0 : ∀ r < n, c ≤ r → cell W r c = 0)
    (hr : r < n) : dot w n (cell W r) (kernelVec W c) = 0 := by
  have hrow : dot w n (cell W r) (columnAbove W c) = dot w n (unitVec r) (columnAbove W c) := by
    refine xorSum_congr fun k _ => ?_
    unfold columnAbove
    split
    · next hk => rw [h.unit r hr k hk]
    · rw [gfMul_zero, gfMul_zero]
  have hcol : columnAbove W c r = cell W r c := by
    unfold columnAbove
    split
    · rfl
    · next hrc => exact (h0 r hr (not_lt.1 hrc)).symm
  calc dot w n (cell W r) (kernelVec W c)
      = dot w n (cell W r) (columnAbove W c) ^^^ dot w n (cell W r) (unitVec c) :=
        dot_xor (h.isElem r) h.isVec_columnAbove (isVec_unitVec w c) n
    _ = cell W r c ^^^ cell W r c := by
        rw [hrow, unitVec_dot h.isVec_columnAbove hr, hcol, dot_unitVec (h.isElem r) hc]
    _ = 0 := BitVec.xor_self

/-! ### The augmented matrix -/

/-- The vector of length `2n` with `x` before `y`. -/
def joinVec (n : Nat) (x y : Nat → Half) (k : Nat) : Half := if k < n then x k else y (k - n)

theorem isVec_joinVec (hx : IsVec w x) (hy : IsVec w y) : IsVec w (joinVec n x y) := fun k => by
  unfold joinVec
  split
  · exact hx k
  · exact hy (k - n)

theorem dot_joinVec (w : Width) (n : Nat) (a x y : Nat → Half) :
    dot w (2 * n) a (joinVec n x y) = dot w n a x ^^^ dot w n (fun k => a (n + k)) y := by
  have hx : dot w n a (joinVec n x y) = dot w n a x := dot_congr (fun _ _ => rfl) fun k hk => if_pos hk
  have hy : (fun k => joinVec n x y (n + k)) = y := funext fun k => by simp [joinVec]
  rw [Nat.two_mul, dot_add, hx, hy]

/-- `A · x = y`, for a square matrix of size `n`. -/
def Maps (w : Width) (n : Nat) (A : Nat → Nat → Half) (x y : Nat → Half) : Prop := ∀ r < n, dot w n (A r) x = y r

theorem cell_augment (hr : r < n) (hj : j < 2 * n) :
    cell (augment (Mat.ofFn n n A) n) r j = joinVec n (A r) (unitVec r) j := by
  rw [augment, cell_tabulate _ _ _ r j hr hj]
  unfold joinVec
  split
  · next hjn => exact Mat.at_ofFn n n A r j hr hjn
  · exact Mat.at_ofFn n n unitVec r (j - n) hr (by omega)

theorem reducedTo_augment (hA : ∀ r, IsVec w (A r)) : ReducedTo w n A 0 (augment (Mat.ofFn n n A) n) where
  isElem := isElem_cell_tabulate fun r hr j hj => by
    have he := isVec_joinVec (n := n) (hA r) (isVec_unitVec w r) j
    rwa [← cell_augment hr hj, augment, cell_tabulate _ _ _ r j hr hj] at he
  unit _ _ _ hk := absurd hk (Nat.not_lt_zero _)
  solves _ _ := Iff.rfl

/-- `[A | I] · (x, y) = 0` says that `A · x = y`, since exclusive-or is its own inverse. -/
theorem solves_augment_iff (hy : IsVec w y) :
    Solves w n (augment (Mat.ofFn n n A) n) (joinVec n x y) ↔ Maps w n A x y := by
  refine forall₂_congr fun r hr => ?_
  have hleft : dot w n (joinVec n (A r) (unitVec r)) x = dot w n (A r) x :=
    dot_congr_row fun k hk => if_pos hk
  have hright : (fun k => joinVec n (A r) (unitVec r) (n + k)) = unitVec r := funext fun k => by simp [joinVec]
  rw [dot_congr_row fun j hj => cell_augment hr hj, dot_joinVec, hleft, hright, unitVec_dot hy hr]
  exact BitVec.xor_eq_zero_iff

/-- The right half of the matrix of the elimination. -/
def rightHalf (n : Nat) (W : List (List Half)) (r k : Nat) : Half := cell W r (n + k)

/-- `[I | R] · (x, y) = 0` says that `R · y = x`. -/
theorem ReducedTo.solves_iff (h : ReducedTo w n A n W) (hx : IsVec w x) :
    Solves w n W (joinVec n x y) ↔ Maps w n (rightHalf n W) y x := by
  refine forall₂_congr fun r hr => ?_
  rw [dot_joinVec, dot_congr_row (h.unit r hr), unitVec_dot hx hr]
  exact BitVec.xor_eq_zero_iff.trans eq_comm

/-! ### The inversion -/

/-- `R` inverts `A`: it is a matrix of field elements that maps `y` to `x` exactly when `A` maps `x` to `y`. -/
structure Inverts (w : Width) (n : Nat) (R A : Nat → Nat → Half) : Prop where
  isElem : ∀ r, IsVec w (R r)
  maps_iff : ∀ x y, IsVec w x → IsVec w y → (Maps w n A x y ↔ Maps w n R y x)

/-- `A` is singular: it maps a non-zero vector to zero. -/
def Singular (w : Width) (n : Nat) (A : Nat → Nat → Half) : Prop :=
  ∃ x, IsVec w x ∧ Maps w n A x (fun _ => 0) ∧ ∃ i < n, x i ≠ 0

theorem ReducedTo.inverts (h : ReducedTo w n A n W) : Inverts w n (rightHalf n W) A where
  isElem r k := h.isElem r (n + k)
  maps_iff x y hx hy := by
    rw [← solves_augment_iff hy, ← h.solves_iff hx, h.solves _ (isVec_joinVec hx hy)]

theorem ReducedTo.singular (h : ReducedTo w n A c W) (hc : c < n) (h0 : ∀ r < n, c ≤ r → cell W r c = 0) :
    Singular w n A := by
  have hzero : IsVec w fun _ => 0 := fun _ => isElem_zero w
  refine ⟨kernelVec W c, h.isVec_kernelVec, ?_, c, hc, ?_⟩
  · rw [← solves_augment_iff hzero, ← h.solves _ (isVec_joinVec h.isVec_kernelVec hzero)]
    intro r hr
    rw [dot_joinVec, h.dot_kernelVec hc h0 hr, dot_eq_zero fun _ _ => rfl]
    exact BitVec.xor_self
  · rw [kernelVec_self]
    decide

theorem ReducedTo.gaussFrom (h : ReducedTo w n A c W) {k : Nat} (hk : c + k = n) :
    (∃ W', gaussFrom w n k c W = .ok W' ∧ Inverts w n (rightHalf n W') A) ∨
      gaussFrom w n k c W = .error .matrixSingular ∧ Singular w n A := by
  induction k generalizing c W with
  | zero =>
    obtain rfl : c = n := hk
    exact .inl ⟨W, rfl, h.inverts⟩
  | succ k ih =>
    have hc : c < n := by omega
    unfold Machine.gaussFrom
    obtain ⟨W', hstep, h'⟩ | ⟨hstep, h0⟩ := h.gaussStep hc
    · rw [hstep]
      exact ih h' (by omega)
    · rw [hstep]
      exact .inr ⟨rfl, h.singular hc h0⟩

/-- A square matrix of field elements is inverted, or it is singular and the inversion says so (42_matrix_engine.md
R205, R209). -/
theorem matInv_ofFn (hA : ∀ r, IsVec w (A r)) (n : Nat) :
    (∃ R, matInv w (Mat.ofFn n n A) = .ok (Mat.ofFn n n R) ∧ Inverts w n R A) ∨
      matInv w (Mat.ofFn n n A) = .error .matrixSingular ∧ Singular w n A := by
  simp only [matInv, Mat.rows_ofFn, Mat.cols_ofFn, ne_eq, not_true_eq_false, if_false]
  obtain ⟨W, hW, hinv⟩ | ⟨hW, hsing⟩ := (reducedTo_augment hA).gaussFrom (Nat.zero_add n)
  · rw [hW]
    exact .inl ⟨_, rfl, hinv⟩
  · rw [hW]
    exact .inr ⟨rfl, hsing⟩

theorem matInv_of_ne {B : Mat} (h : B.rows ≠ B.cols) : matInv w B = .error .dimensionMismatch := if_pos h

variable {L R : Nat → Nat → Half}

/-- A matrix that maps every `A · x` back to `x` is a left inverse: take the columns of the identity for `x`. -/
theorem matMul_eq_identity_of_maps (hA : ∀ r, IsVec w (A r))
    (h : ∀ x y, IsVec w x → IsVec w y → Maps w n A x y → Maps w n L y x) :
    matMul w (Mat.ofFn n n L) (Mat.ofFn n n A) = .ok (identity n) := by
  rw [matMul_eq_identity_iff]
  intro r hr c hc
  rw [unitVec_comm]
  exact h (unitVec c) (fun k => A k c) (isVec_unitVec w c) (fun k => hA k c) (fun k _ => dot_unitVec (hA k) hc) r hr

/-- An inverse is two-sided (42_matrix_engine.md R217). -/
theorem Inverts.matMul (h : Inverts w n R A) (hA : ∀ r, IsVec w (A r)) :
    matMul w (Mat.ofFn n n A) (Mat.ofFn n n R) = .ok (identity n) ∧
      matMul w (Mat.ofFn n n R) (Mat.ofFn n n A) = .ok (identity n) :=
  ⟨matMul_eq_identity_of_maps h.isElem fun y x hy hx => (h.maps_iff x y hx hy).2,
    matMul_eq_identity_of_maps hA fun x y hx hy => (h.maps_iff x y hx hy).1⟩

/-- A singular matrix has no left inverse, which would map zero back to the non-zero vector. -/
theorem Singular.not_matMul_eq_identity (h : Singular w n A) (hL : ∀ r, IsVec w (L r)) (hA : ∀ r, IsVec w (A r)) :
    matMul w (Mat.ofFn n n L) (Mat.ofFn n n A) ≠ .ok (identity n) := by
  obtain ⟨x, hx, hker, i, hi, hne⟩ := h
  rw [Ne, matMul_eq_identity_iff]
  intro hid
  refine hne ?_
  calc x i = dot w n (unitVec i) x := (unitVec_dot hx hi).symm
    _ = dot w n (fun c => dot w n (L i) fun k => A k c) x :=
        dot_congr_row fun c hc => (hid i hi c hc).symm
    _ = dot w n (L i) (fun k => dot w n (A k) x) := (dot_dot (hL i) hA hx n n).symm
    _ = 0 := dot_eq_zero hker

end Sys2Proof.Machine
end

section
/-! PROOFS. The matrix family: the matrix algebra (42_matrix_engine.md R217) and the completions of the matrix commands
(R212 to R216). -/

namespace Sys2Proof.Machine

/-! ### The algebra -/

/-- Settles O23: an inverse is two-sided since the elimination keeps the solutions of its rows. -/
theorem matrixAlgebra : Obligations.MatrixAlgebra := by
  intro w n m k l f g h hf hg hh
  refine ⟨fun R hR => ?_, matMul_identity_left hf n m, matMul_assoc hf hg hh n m k l⟩
  obtain ⟨R', hok, hinv⟩ | ⟨herr, -⟩ := matInv_ofFn hf n
  · obtain rfl : Mat.ofFn n n R' = R := Except.ok.inj (hok.symm.trans hR)
    exact hinv.matMul hf
  · cases herr.symm.trans hR

/-! ### The completion of a matrix command -/

theorem complete_matResult_error (s : State) (md : MatReg) (e : CmdError) :
    complete s (matResult s md (.error e)) = .next (afterFailure e.code s) := rfl

/-- A matrix result is written inside its shape, and nothing else changes (10_state.md R47). -/
theorem writesMatrix_writeMat (s : State) (md : MatReg) {R : Mat} (hR : R.Fits (2 ^ 16)) {f : Nat → Nat → Half}
    (hf : ∀ r < R.rows, ∀ c < R.cols, R.at r c = f r c) :
    WritesMatrix s (afterSuccess (s.writeMat md R)) md R.rows R.cols f := by
  refine ⟨fun r hr c hc => ?_, fun m r c hr hc h => get?_matCells_outside s.el md m R hR.1 hR.2 hr hc h, rfl⟩
  rw [← hf r hr c hc]
  exact get?_matCells_inside s.el md R hR.1 hR.2 hr hc

theorem complete_matResult_ofFn (s : State) (md : MatReg) {n m : Nat} (hn : n ≤ 2 ^ 16) (hm : m ≤ 2 ^ 16)
    (f : Nat → Nat → Half) : ∃ t, complete s (matResult s md (.ok (Mat.ofFn n m f))) = .next t ∧
      WritesMatrix s t md n m f :=
  ⟨_, rfl, writesMatrix_writeMat s md (R := Mat.ofFn n m f) ⟨hn, hm⟩ fun r hr c hc =>
    Mat.at_ofFn n m f r c hr hc⟩

/-! ### The commands -/

/-- Settles O19, by the capacity check. -/
theorem matIdentityResult : Obligations.MatIdentityResult := by
  intro s md _ _
  have hexec : exec (.matIdentity md) s = complete s (matResult s md
      (if s.params.nMax < s.argN.toNat then .error .capacityExceeded else .ok (identity s.argN.toNat))) := rfl
  rw [hexec]
  constructor
  · intro h
    rw [if_neg (not_lt.2 h)]
    exact complete_matResult_ofFn s md s.argN.isLt.le s.argN.isLt.le unitVec
  · intro h
    rw [if_pos h, complete_matResult_error]
    rfl

/-- An operand of MAT_MUL or MAT_INV holds the low parts of the elements (42_matrix_engine.md R201). -/
theorem State.matVal_eq (s : State) (w : Width) (k : Nat) (m : MatReg) :
    s.matVal w k m = Mat.ofFn (s.shapes.get m).rows.toNat (s.shapes.get m).cols.toNat fun r c =>
      lowPart w (s.elAt [k] m r c) :=
  Mat.ofFn_congr fun _ _ _ _ => truncTo_eq_lowPart w _

/-- Settles O20, by the check of the inner dimensions. -/
theorem matMulResult : Obligations.MatMulResult := by
  intro s w md ma mb _
  have hexec : exec (.matMul w md ma mb) s =
      complete s (matResult s md (matMul w (s.matVal w 0 ma) (s.matVal w 1 mb))) := rfl
  rw [hexec]
  constructor
  · intro h
    rw [s.matVal_eq, s.matVal_eq, h, matMul_ofFn]
    exact complete_matResult_ofFn s md (BitVec.isLt _).le (BitVec.isLt _).le _
  · intro h
    rw [matMul_of_ne fun e => h (BitVec.eq_of_toNat_eq e), complete_matResult_error]
    rfl

theorem submatrix_of_lt {A : Mat} {ix : List Nat} (h : ∀ i ∈ ix, i < A.rows) :
    submatrix A ix = .ok (Mat.ofFn ix.length A.cols fun j c => A.at (ix.getD j 0) c) :=
  if_neg (by simpa using h)

theorem submatrix_of_ge {A : Mat} {ix : List Nat} {i : Nat} (hi : i ∈ ix) (h : A.rows ≤ i) :
    submatrix A ix = .error .indexOutOfRange :=
  if_pos (List.any_eq_true.2 ⟨i, hi, decide_eq_true h⟩)

theorem State.mem_idxList {s : State} {i : Nat} :
    i ∈ s.idxList ↔ ∃ j < s.idxCount.toNat, (s.idxAt [0] j).toNat = i := by
  simp [State.idxList]

theorem State.getD_idxList {s : State} {j : Nat} (h : j < s.idxCount.toNat) :
    s.idxList.getD j 0 = (s.idxAt [0] j).toNat := by
  simp [State.idxList, h]

/-- The selected rows of an operand, when every index is in range (42_matrix_engine.md R204, R215). -/
theorem State.submatrix_matRaw {s : State} {m : MatReg}
    (h : ∀ j < s.idxCount.toNat, (s.idxAt [0] j).toNat < (s.shapes.get m).rows.toNat) :
    submatrix (s.matRaw 0 m) s.idxList = .ok (Mat.ofFn s.idxCount.toNat (s.shapes.get m).cols.toNat fun j c =>
      s.elAt [0] m (s.idxAt [0] j).toNat c) := by
  rw [submatrix_of_lt fun i hi => ?_, State.length_idxList]
  · refine congrArg Except.ok (Mat.ofFn_congr fun j hj c hc => ?_)
    rw [State.getD_idxList hj]
    exact Mat.at_ofFn _ _ _ _ _ (h j hj) hc
  · obtain ⟨j, hj, rfl⟩ := State.mem_idxList.1 hi
    exact h j hj

/-- Settles O21, by the check of the indices. -/
theorem matSubResult : Obligations.MatSubResult := by
  intro s md ma _
  have hexec : exec (.matSub md ma) s = complete s (matResult s md (submatrix (s.matRaw 0 ma) s.idxList)) := rfl
  rw [hexec]
  constructor
  · intro h
    rw [State.submatrix_matRaw h]
    exact complete_matResult_ofFn s md s.idxCount.isLt.le (BitVec.isLt _).le _
  · rintro ⟨j, hj, hge⟩
    rw [submatrix_of_ge (State.mem_idxList.2 ⟨j, hj, rfl⟩) hge, complete_matResult_error]
    rfl

/-- Settles O22: the elimination inverts the operand or shows that it is singular, and a singular matrix has no left
inverse. -/
theorem matInvResult : Obligations.MatInvResult := by
  intro s w md ma _ n A invertible
  have hexec : exec (.matInv w md ma) s = complete s (matResult s md (matInv w (s.matVal w 0 ma))) := rfl
  rw [hexec]
  have hA : ∀ r, IsVec w fun c => lowPart w (s.elAt [0] ma r c) := fun _ _ => isElem_lowPart w _
  have hval (hsq : (s.shapes.get ma).rows = (s.shapes.get ma).cols) : s.matVal w 0 ma = A := by
    rw [s.matVal_eq, ← hsq]
  refine ⟨fun hsq hinv => ?_, fun hsq hinv => ?_, fun hne => ?_⟩
  · rw [hval hsq]
    obtain ⟨R, hok, hR⟩ | ⟨-, hsing⟩ := matInv_ofFn hA n
    · obtain ⟨t, ht, hwrites⟩ := complete_matResult_ofFn s md (BitVec.isLt _).le (BitVec.isLt _).le R
      obtain ⟨hright, hleft⟩ := hR.matMul hA
      exact ⟨t, R, by rw [hok, ht], hwrites, fun r _ c _ => hR.isElem r c, hleft, hright⟩
    · obtain ⟨L, hL, hleft⟩ := hinv
      exact absurd hleft (hsing.not_matMul_eq_identity hL hA)
  · rw [hval hsq]
    obtain ⟨R, -, hR⟩ | ⟨herr, -⟩ := matInv_ofFn hA n
    · exact absurd ⟨R, hR.isElem, (hR.matMul hA).2⟩ hinv
    · rw [herr, complete_matResult_error]
      rfl
  · rw [matInv_of_ne fun e => hne (BitVec.eq_of_toNat_eq e), complete_matResult_error]
    rfl

end Sys2Proof.Machine
end

section
/-! SUPPORT. Square Vandermonde matrices (43_encoding_matrix_builder.md R231, R232). The field laws (41_field_arith.md
R186) make the elements of a width an integral domain, in which Mathlib's theorem says that a Vandermonde matrix on
distinct points has no kernel. -/

namespace Sys2Proof.Machine

variable {w : Width} {n : Nat}

/-! ### The field as a ring of Mathlib -/

/-- The elements of a field (41_field_arith.md R170). -/
abbrev Elem (w : Width) := {a : Half // IsElem w a}

/-- The ring that the field laws make of the elements (41_field_arith.md R186). -/
@[reducible] def elemRing (w : Width) : CommRing (Elem w) :=
  letI : Add (Elem w) := ⟨fun a b => ⟨a.1 ^^^ b.1, a.2.xor b.2⟩⟩
  letI : Mul (Elem w) := ⟨fun a b => ⟨gfMul w a.1 b.1, isElem_gfMul w _ _⟩⟩
  letI : Neg (Elem w) := ⟨id⟩
  letI : Zero (Elem w) := ⟨⟨0, isElem_zero w⟩⟩
  letI : One (Elem w) := ⟨⟨1, isElem_one w⟩⟩
  .ofMinimalAxioms (fun _ _ _ => Subtype.ext (BitVec.xor_assoc _ _ _)) (fun _ => Subtype.ext BitVec.zero_xor)
    (fun _ => Subtype.ext BitVec.xor_self) (fun a b c => Subtype.ext (gfMul_assoc a.2 b.2 c.2))
    (fun _ _ => Subtype.ext (gfMul_comm w _ _)) (fun a => Subtype.ext (one_gfMul a.2))
    fun a b c => Subtype.ext (gfMul_xor a.2 b.2 c.2)

theorem isDomain_elemRing (w : Width) : letI := elemRing w; IsDomain (Elem w) := by
  let := elemRing w
  have hne : (0 : Half) ≠ 1 := by decide
  have : Nontrivial (Elem w) := ⟨⟨0, 1, fun h => hne (congrArg Subtype.val h)⟩⟩
  have hmul (a b : Elem w) (h : a * b = 0) : a = 0 ∨ b = 0 :=
    (gfMul_eq_zero_iff.1 (congrArg Subtype.val h)).imp Subtype.ext Subtype.ext
  have : NoZeroDivisors (Elem w) := ⟨fun {a b} => hmul a b⟩
  exact NoZeroDivisors.to_isDomain _

theorem val_sum_elem (f : Nat → Elem w) (n : Nat) :
    letI := elemRing w; (∑ i ∈ Finset.range n, f i).1 = xorSum n fun k => (f k).1 := by
  let := elemRing w
  induction n with
  | zero => rfl
  | succ n ih =>
    rw [Finset.sum_range_succ, xorSum_succ, ← ih]
    rfl

theorem val_pow_elem (a : Elem w) (n : Nat) : letI := elemRing w; (a ^ n).1 = gfPowIter w a.1 n := by
  let := elemRing w
  induction n with
  | zero => rfl
  | succ n ih =>
    rw [pow_succ, gfPowIter, ← ih]
    rfl

/-- A square Vandermonde matrix on distinct points is not singular. -/
theorem not_singular_of_distinct_points {a : Nat → Half} (ha : ∀ i < n, IsElem w (a i))
    (hinj : ∀ i < n, ∀ j < n, a i = a j → i = j) : ¬ Singular w n fun r => gfPowIter w (a r) := by
  rintro ⟨x, hx, hker, i, hi, hne⟩
  let := elemRing w
  have := isDomain_elemRing w
  let p (r : Fin n) : Elem w := ⟨a r, ha r r.2⟩
  let v (k : Nat) : Elem w := ⟨x k, hx k⟩
  have hp : Function.Injective p := fun r s h => Fin.ext (hinj r r.2 s s.2 (congrArg Subtype.val h))
  have hv (r : Fin n) : ∑ k : Fin n, p r ^ (k : Nat) * v k = 0 := by
    rw [Fin.sum_univ_eq_sum_range (fun k => p r ^ k * v k)]
    refine Subtype.ext ((val_sum_elem _ n).trans ?_)
    refine (xorSum_congr fun k _ => ?_).trans (hker r r.2)
    exact congrArg (gfMul w · (x k)) (val_pow_elem (p r) k)
  have hzero := congrFun (Matrix.eq_zero_of_forall_index_sum_pow_mul_eq_zero hp hv) ⟨i, hi⟩
  exact hne (congrArg Subtype.val hzero)

/-! ### The rows of `V` -/

/-- Row `r` of the Vandermonde matrix: the powers of the point `r + 1` (43_encoding_matrix_builder.md R231, R232). -/
def pointRow (w : Width) (r : Nat) : Nat → Half := gfPowIter w (BitVec.ofNat 16 (r + 1))

theorem isVec_pointRow (w : Width) (r : Nat) : IsVec w (pointRow w r) := isElem_gfPowIter w _

theorem toNat_point {r : Nat} (h : r < fieldLimit w) : (BitVec.ofNat 16 (r + 1)).toNat = r + 1 := by
  rw [BitVec.toNat_ofNat, Nat.mod_eq_of_lt]
  cases w <;> simp [fieldLimit, Width.bits] at h <;> omega

theorem isElem_point {r : Nat} (h : r < fieldLimit w) : IsElem w (BitVec.ofNat 16 (r + 1)) := by
  have hlt := fieldLimit_lt w
  rw [IsElem, toNat_point h]
  omega

theorem vandermonde_eq {N : Nat} (hN : N ≤ fieldLimit w) (n : Nat) :
    vandermonde w N n = Mat.ofFn N n (pointRow w) :=
  Mat.ofFn_congr fun _ hr c _ => gfPow_eq_gfPowIter (isElem_point (hr.trans_le hN)) c

/-- Distinct rows of `V` form a matrix that is not singular (43_encoding_matrix_builder.md R233). -/
theorem not_singular_pointRow {f : Nat → Nat} (hf : ∀ i < n, f i < fieldLimit w)
    (hinj : ∀ i < n, ∀ j < n, f i = f j → i = j) : ¬ Singular w n fun j => pointRow w (f j) := by
  refine not_singular_of_distinct_points (fun i hi => isElem_point (hf i hi)) fun i hi j hj h => hinj i hi j hj ?_
  have h' := congrArg BitVec.toNat h
  rwa [toNat_point (hf i hi), toNat_point (hf j hj), Nat.add_right_cancel_iff] at h'

end Sys2Proof.Machine
end

section
/-! SUPPORT. The builder (43_encoding_matrix_builder.md R233): row `r` of its matrix is row `r` of `V` times the inverse
of the top block of `V`. The commands that build answer with that matrix or with the first check that fails (R235). -/

namespace Sys2Proof.Machine

variable {w : Width} {n : Nat} {R : Nat → Nat → Half}

/-- Row `r` of `V` times the matrix `R`. -/
def codeRow (w : Width) (n : Nat) (R : Nat → Nat → Half) (r c : Nat) : Half := dot w n (pointRow w r) fun k => R k c

theorem isVec_codeRow (w : Width) (n : Nat) (R : Nat → Nat → Half) (r : Nat) : IsVec w (codeRow w n R r) :=
  fun _ => isElem_dot w n _ _

theorem submatrix_ofFn {N m : Nat} {f : Nat → Nat → Half} {ix : List Nat} (h : ∀ i ∈ ix, i < N) :
    submatrix (Mat.ofFn N m f) ix = .ok (Mat.ofFn ix.length m fun j => f (ix.getD j 0)) := by
  rw [submatrix_of_lt h]
  refine congrArg Except.ok (Mat.ofFn_congr fun j hj c hc => Mat.at_ofFn _ _ _ _ _ (h _ ?_) hc)
  rw [List.getD_eq_getElem _ _ hj]
  exact List.getElem_mem hj

theorem exists_matInv_of_not_singular {A : Nat → Nat → Half} (hA : ∀ r, IsVec w (A r)) (h : ¬ Singular w n A) :
    ∃ R, matInv w (Mat.ofFn n n A) = .ok (Mat.ofFn n n R) ∧ Inverts w n R A :=
  (matInv_ofFn hA n).resolve_right fun hs => h hs.2

/-- The builder inverts the top block of `V` and never fails (43_encoding_matrix_builder.md R233). -/
theorem build_eq_ok {p : Nat} (h : n + p ≤ fieldLimit w) :
    ∃ R, Inverts w n R (pointRow w) ∧ build w n p = .ok (Mat.ofFn (n + p) n (codeRow w n R)) := by
  have hV := vandermonde_eq h n
  have hT : submatrix (vandermonde w (n + p) n) (List.range n) = .ok (Mat.ofFn n n (pointRow w)) := by
    rw [hV, submatrix_ofFn fun i hi => (List.mem_range.1 hi).trans_le (Nat.le_add_right n p), List.length_range]
    refine congrArg Except.ok (Mat.ofFn_congr fun j hj c _ => ?_)
    rw [List.getD_eq_getElem _ _ (by simpa using hj), List.getElem_range]
  have hns : ¬ Singular w n (pointRow w) := not_singular_pointRow (f := id)
    (fun i hi => hi.trans_le ((Nat.le_add_right n p).trans h)) fun _ _ _ _ hij => hij
  obtain ⟨R, hok, hR⟩ := exists_matInv_of_not_singular (isVec_pointRow w) hns
  refine ⟨R, hR, ?_⟩
  simp only [build, hT, hok]
  rw [hV, matMul_ofFn]
  rfl

/-- The two-sided inverse as equations of the entries. -/
theorem Inverts.dot_eq_unitVec {A : Nat → Nat → Half} (h : Inverts w n R A) (hA : ∀ r, IsVec w (A r)) {r c : Nat}
    (hr : r < n) (hc : c < n) :
    dot w n (A r) (fun k => R k c) = unitVec r c ∧ dot w n (R r) (fun k => A k c) = unitVec r c := by
  obtain ⟨hright, hleft⟩ := h.matMul hA
  exact ⟨matMul_eq_identity_iff.1 hright r hr c hc, matMul_eq_identity_iff.1 hleft r hr c hc⟩

variable {x : Nat → Half} {r c : Nat}

/-- The product `V · R` applied to `x`. -/
theorem dot_codeRow (hR : ∀ k, IsVec w (R k)) (hx : IsVec w x) (r : Nat) :
    dot w n (codeRow w n R r) x = dot w n (pointRow w r) fun k => dot w n (R k) x :=
  (dot_dot (isVec_pointRow w r) hR hx n n).symm

/-- The top rows are those of the identity (43_encoding_matrix_builder.md R230, R234). -/
theorem Inverts.codeRow_of_lt (h : Inverts w n R (pointRow w)) (hr : r < n) (hc : c < n) :
    codeRow w n R r c = unitVec r c :=
  (h.dot_eq_unitVec (isVec_pointRow w) hr hc).1

/-- `E` times the top block of `V` is `V`. -/
theorem Inverts.dot_codeRow_pointRow (h : Inverts w n R (pointRow w)) (r : Nat) (hc : c < n) :
    (dot w n (codeRow w n R r) fun k => pointRow w k c) = pointRow w r c := by
  rw [dot_codeRow h.isElem fun k => isVec_pointRow w k c,
    dot_congr (fun _ _ => rfl) fun k hk => (h.dot_eq_unitVec (isVec_pointRow w) hk hc).2.trans (unitVec_comm k c),
    dot_unitVec (isVec_pointRow w r) hc]

/-- The kernel of rows of `V · R` is 0: `R` carries it into the kernel of the rows of `V`, and the top block of `V`
carries it back (43_encoding_matrix_builder.md R234). -/
theorem Inverts.not_singular_codeRow (h : Inverts w n R (pointRow w)) {f : Nat → Nat}
    (hf : ¬ Singular w n fun j => pointRow w (f j)) : ¬ Singular w n fun j => codeRow w n R (f j) := by
  rintro ⟨x, hx, hker, i, hi, hne⟩
  have hy : IsVec w fun k => dot w n (R k) x := fun _ => isElem_dot w n _ _
  have hback : dot w n (pointRow w i) (fun k => dot w n (R k) x) = x i :=
    (h.maps_iff _ x hy hx).2 (fun _ _ => rfl) i hi
  refine hf ⟨_, hy, fun j hj => (dot_codeRow h.isElem hx (f j)).symm.trans (hker j hj), ?_⟩
  by_contra! hzero
  exact hne (hback.symm.trans (dot_eq_zero hzero))

/-- Any `n` distinct rows of the builder's matrix, in any order, form an invertible one (43_encoding_matrix_builder.md
R230, R234). -/
theorem Inverts.exists_matInv_selection (h : Inverts w n R (pointRow w)) {N : Nat} (hN : N ≤ fieldLimit w)
    {rows : List Nat} (hlen : rows.length = n) (hnodup : rows.Nodup) (hlt : ∀ r ∈ rows, r < N) :
    ∃ D S, submatrix (Mat.ofFn N n (codeRow w n R)) rows = .ok D ∧ matInv w D = .ok S := by
  subst hlen
  have hget {j : Nat} (hj : j < rows.length) : rows.getD j 0 = rows[j] := List.getD_eq_getElem _ _ hj
  have hns : ¬ Singular w rows.length fun j => pointRow w (rows.getD j 0) := by
    refine not_singular_pointRow (fun j hj => ?_) fun i hi j hj hij => ?_
    · rw [hget hj]
      exact (hlt _ (List.getElem_mem hj)).trans_le hN
    · rwa [hget hi, hget hj, hnodup.getElem_inj_iff] at hij
  obtain ⟨S, hS, -⟩ := exists_matInv_of_not_singular (fun j => isVec_codeRow w _ R (rows.getD j 0))
    (h.not_singular_codeRow hns)
  exact ⟨_, _, submatrix_ofFn hlt, hS⟩

/-! ### The commands that build (43_encoding_matrix_builder.md R235, R236) -/

variable {s : State}

theorem exec_matBuild (w : Width) (md : MatReg) (s : State) :
    exec (.matBuild w md) s = complete s (matResult s md (s.cfgBuild w)) := rfl

theorem cfgBuild_of_countCheck_eq_some {e : CmdError}
    (h : countCheck w s.params.nMax s.cfgNdata.toNat s.cfgNparity.toNat = some e) : s.cfgBuild w = .error e := by
  rw [State.cfgBuild, h]

theorem cfgBuild_of_countCheck_eq_none
    (h : countCheck w s.params.nMax s.cfgNdata.toNat s.cfgNparity.toNat = none) :
    s.cfgBuild w = build w s.cfgNdata.toNat s.cfgNparity.toNat := by
  rw [State.cfgBuild, h]

/-- Both building commands fail as the checked build does, and change nothing else (40_command_lifecycle.md R154). -/
theorem exec_builders_of_countCheck_eq_some {e : CmdError} (md : MatReg)
    (h : countCheck w s.params.nMax s.cfgNdata.toNat s.cfgNparity.toNat = some e) :
    exec (.matBuild w md) s = .next (afterFailure e.code s) ∧
      exec (.rsConstruct w) s = .next (afterFailure e.code s) := by
  have hfail := cfgBuild_of_countCheck_eq_some h
  constructor
  · rw [exec_matBuild, hfail, complete_matResult_error]
  · rw [exec, execRsConstruct, hfail]
    rfl

/-- The order of the checks (43_encoding_matrix_builder.md R235). -/
theorem countCheck_eq_tooManyShards {nMax n p : Nat} (h0 : n ≠ 0) (h : fieldLimit w < n + p ∨ nMax < n + p) :
    countCheck w nMax n p = some .tooManyShards := by
  rw [countCheck, if_neg h0]
  split
  · rfl
  · next hlim => exact if_pos (h.resolve_left hlim)

end Sys2Proof.Machine
end

section
/-! PROOFS. The encoding-matrix builder family: the matrix of the builder (43_encoding_matrix_builder.md R230 to R234),
and the validation (R235) and result (R236) of the commands that build. -/

namespace Sys2Proof.Machine

/-- Settles O24: the rows are those of `V` times the inverse of its top block, and Vandermonde rows on distinct points
form no singular matrix. -/
theorem buildIsSystematicAndInvertible : Obligations.BuildIsSystematicAndInvertible := by
  intro w n p _ h
  obtain ⟨R, hR, hbuild⟩ := build_eq_ok h
  have hat {r c : Nat} (hr : r < n + p) (hc : c < n) :
      (Mat.ofFn (n + p) n (codeRow w n R)).at r c = codeRow w n R r c := Mat.at_ofFn _ _ _ r c hr hc
  refine ⟨_, hbuild, rfl, rfl, fun r hr c hc => ?_, fun r hr c hc => ?_, fun r hr c hc => ?_,
    fun rows hlen hnodup hlt => hR.exists_matInv_selection h hlen hnodup hlt⟩
  · rw [hat hr hc]
    exact isVec_codeRow w n R r c
  · rw [hat (hr.trans_le (Nat.le_add_right n p)) hc]
    exact hR.codeRow_of_lt hr hc
  · exact (dot_congr_row fun k hk => hat hr hk).trans (hR.dot_codeRow_pointRow r hc)

/-- Settles O25, by the order of the checks. -/
theorem buildersRejectBadCounts : Obligations.BuildersRejectBadCounts := by
  intro s w md _ n p
  exact ⟨fun h0 => exec_builders_of_countCheck_eq_some md (if_pos h0),
    fun h0 h => exec_builders_of_countCheck_eq_some md (countCheck_eq_tooManyShards h0 h)⟩

/-- Settles O26: the checked build is the builder's answer, and a matrix result is written inside its shape. -/
theorem matBuildResult : Obligations.MatBuildResult := by
  intro s w md E _ hwf h0 hlim hmax hbuild
  have hcheck : countCheck w s.params.nMax s.cfgNdata.toNat s.cfgNparity.toNat = none :=
    countCheck_eq_none_iff.2 ⟨fun h => h0 (BitVec.eq_of_toNat_eq h), hlim, hmax⟩
  have hcfg := (cfgBuild_of_countCheck_eq_none hcheck).trans hbuild
  obtain ⟨hrows, hcols⟩ := build_shape hbuild
  rw [exec_matBuild, hcfg, ← hrows, ← hcols]
  exact ⟨_, rfl, writesMatrix_writeMat s md (cfgBuild_fits hcfg (nMax_le_of_wf hwf)) fun _ _ _ _ => rfl⟩

end Sys2Proof.Machine
end

section
/-! PROOFS. The engine's counts, width and matrix (44_rs_engine.md R253 to R255): RS_CONSTRUCT writes them all, and
every step keeps `M[ENC]` the encoding matrix of the latched counts and width. -/

namespace Sys2Proof.Machine

variable {s t u : State} {w : Width} {E : Mat} {i : Instr}

/-! ### The result of RS_CONSTRUCT -/

@[simp] theorem State.engWidth_writeInstance (s : State) (w : Width) (E : Mat) :
    (s.writeInstance w E).engWidth = w := by cases w <;> rfl

theorem exec_rsConstruct (h : s.cfgBuild w = .ok E) :
    exec (.rsConstruct w) s = .next (afterSuccess (s.writeInstance w E)) := by
  rw [exec, execRsConstruct, h]
  rfl

/-- Settles O27: the result is a matrix in `M[ENC]`, written into the state with the counts, the width and
`CONFIGURED` set. -/
theorem rsConstructResult : Obligations.RsConstructResult := by
  intro s w E hwf h0 hlim hmax hbuild
  have hcheck : countCheck w s.params.nMax s.cfgNdata.toNat s.cfgNparity.toNat = none :=
    countCheck_eq_none_iff.2 ⟨fun h => h0 (BitVec.eq_of_toNat_eq h), hlim, hmax⟩
  have hcfg := (cfgBuild_of_countCheck_eq_none hcheck).trans hbuild
  obtain ⟨hrows, hcols⟩ := build_shape hbuild
  rw [← hrows, ← hcols]
  exact ⟨_, exec_rsConstruct hcfg,
    writesMatrix_writeMat _ .enc (cfgBuild_fits hcfg (nMax_le_of_wf hwf)) fun _ _ _ _ => rfl⟩

/-! ### The engine's invariant -/

/-- The invariant speaks of the engine's counts, width and matrix, and of the parameters, only. -/
theorem EngineInv.of_sameInstance (h : EngineInv s) (hn : s.params.nMax ≤ 2 ^ 16) (hsame : SameInstance s t)
    (hp : t.params = s.params) : EngineInv t := by
  obtain ⟨hconf, h16, hnd, hnp, hshape, hel⟩ := hsame
  have hw : t.engWidth = s.engWidth := by simp only [State.engWidth, h16]
  have hd : t.nData = s.nData := congrArg BitVec.toNat hnd
  have hpar : t.nParity = s.nParity := congrArg BitVec.toNat hnp
  have htot : t.nTotal = s.nTotal := congrArg₂ (· + ·) hd hpar
  constructor
  · rw [hconf, hw, hd, hpar, htot, hp, hshape, hnd]
    intro hc
    obtain ⟨h1, hlim, hmax, hsh, E, hE, hat⟩ := h.built hc
    refine ⟨h1, hlim, hmax, hsh, E, hE, fun r hr c hcol => ?_⟩
    have hle : s.nData ≤ s.nTotal := Nat.le_add_right _ _
    rw [hel r c (by omega) (by omega)]
    exact hat r hr c hcol
  · rw [hconf, h16, hnd, hnp, hshape]
    exact h.absent

/-- RS_CONSTRUCT latches counts that pass the validation, with the builder's matrix of them (44_rs_engine.md R250,
R253). -/
theorem engineInv_writeInstance (hn : s.params.nMax ≤ 2 ^ 16) (hE : s.cfgBuild w = .ok E) :
    EngineInv (s.writeInstance w E) where
  built _ := by
    obtain ⟨hcheck, hbuild⟩ := cfgBuild_cases hE
    obtain ⟨h0, hlim, hmax⟩ := countCheck_eq_none_iff.1 hcheck
    obtain ⟨hrows, hcols⟩ := build_shape hbuild
    obtain ⟨hfr, hfc⟩ := cfgBuild_fits hE hn
    rw [State.engWidth_writeInstance]
    refine ⟨Nat.pos_of_ne_zero h0, hlim, hmax, ?_, E, hbuild, fun r hr c hc => ?_⟩
    · refine congrArg₂ Shape.mk (congrArg _ hrows) ?_
      rw [hcols, BitVec.ofNat_toNat]
      exact BitVec.setWidth_eq _
    · exact get?_matCells_inside s.el .enc E hfr hfc (hr.trans_eq hrows.symm) (hc.trans_eq hcols.symm)
  absent h := nomatch h

theorem Effect.keeps_params (he : Effect s i u) : u.params = s.params := by
  rw [he.eq_withResultsOf]
  rfl

theorem RegWrite.keeps_params (hw : RegWrite s u) : u.params = s.params := by cases hw <;> rfl

/-- The capacity is in range, and the engine's invariant holds. -/
def InstanceValid (s : State) : Prop := s.params.nMax ≤ 2 ^ 16 ∧ EngineInv s

theorem InstanceValid.of_sameInstance (h : InstanceValid s) (hsame : SameInstance s t) (hp : t.params = s.params) :
    InstanceValid t :=
  ⟨hp ▸ h.1, h.2.of_sameInstance h.1 hsame hp⟩

/-- Of the commands, RS_CONSTRUCT alone writes the engine's counts, width and matrix. -/
theorem InstanceValid.after_effect (h : InstanceValid s) (hi : i.wf = true) (he : Effect s i u) : InstanceValid u := by
  by_cases hc : ∃ w, i = .rsConstruct w
  · obtain ⟨w, rfl⟩ := hc
    cases he with
    | construct _ E hE => exact ⟨h.1, engineInv_writeInstance h.1 hE⟩
    | gf _ _ hop => simp [Instr.opcode] at hop
  · exact h.of_sameInstance (he.sameInstance h.1 hi fun w hw => hc ⟨w, hw⟩) he.keeps_params

theorem instanceValid_stepClosed : StepClosed InstanceValid where
  agenda _ h := h.of_sameInstance (.of_eq ⟨rfl, rfl⟩ rfl rfl rfl rfl) rfl
  busData _ h := h.of_sameInstance (.of_eq ⟨rfl, rfl⟩ rfl rfl rfl rfl) rfl
  reject h := h.of_sameInstance (.of_eq ⟨rfl, rfl⟩ rfl rfl rfl rfl) rfl
  read _ _ _ _ _ h := h.of_sameInstance (.of_eq ⟨rfl, rfl⟩ rfl rfl rfl rfl) rfl
  write hw h := h.of_sameInstance (hw.sameInstance h.1) hw.keeps_params
  effect hi he h := h.after_effect hi he
  clearVerify h := h.of_sameInstance (.of_eq ⟨rfl, rfl⟩ rfl rfl rfl rfl) rfl
  finish _ h := h.of_sameInstance (.of_eq ⟨rfl, rfl⟩ rfl rfl rfl rfl) rfl
  reset h := ⟨h.1, { EngineInv.resetOf _ with }⟩

/-- Settles O41: the engine's invariant survives every operation of a turn. -/
theorem stepKeepsEngineInstanceValid : Obligations.StepKeepsEngineInstanceValid := fun _ _ hp h ht =>
  (instanceValid_stepClosed.after_step ⟨nMax_le_of_wf hp, h⟩ ht).2

end Sys2Proof.Machine
end

section
/-! SUPPORT. The checks of the engine commands (44_rs_engine.md R246, R247, R256, R258, R274, R276): which one fails
first, what passes them all, and what a command then completes with. -/

namespace Sys2Proof.Machine

variable {s : State} {e : CmdError} {k len p : Nat}

/-! ### The completions -/

theorem exec_rsEncode_of_setCheck_eq_some (h : s.setCheck = some e) :
    exec .rsEncode s = .next (afterFailure e.code s) := by
  rw [exec, execRsEncode, h]
  rfl

theorem exec_rsEncode_of_setCheck_eq_none (h : s.setCheck = none) :
    exec .rsEncode s = .next (afterSuccess (s.writeShards s.encodeCells)) := by
  rw [exec, execRsEncode, h]
  rfl

/-- `VERIFY_OK` is cleared before the checks (44_rs_engine.md R266). -/
theorem exec_rsVerify_of_setCheck_eq_some (h : s.setCheck = some e) :
    exec .rsVerify s = .next (afterFailure e.code (withVerifyOk false s)) := by
  rw [exec, execRsVerify, h]
  rfl

theorem exec_rsVerify_of_setCheck_eq_none (h : s.setCheck = none) :
    exec .rsVerify s = .next (afterSuccess (withVerifyOk s.parityMatches s)) := by
  rw [exec, execRsVerify, h]
  rfl

theorem exec_rsReconstruct_of_recCheck_eq_some (h : s.recCheck = some e) :
    exec .rsReconstruct s = .next (afterFailure e.code s) := by
  rw [exec, execRsReconstruct, h]
  rfl

theorem exec_rsReconstruct_of_absentSet_eq_nil (h : s.recCheck = none) (ha : s.absentSet = []) :
    exec .rsReconstruct s = .next (afterSuccess s) := by
  simp only [exec, execRsReconstruct, h, if_pos ha]
  rfl

theorem exec_rsReconstruct_of_decodeMat_eq_ok {Dinv : Mat} (h : s.recCheck = none) (ha : s.absentSet ≠ [])
    (hD : s.decodeMat = .ok Dinv) :
    exec .rsReconstruct s = .next (afterSuccess
      ((s.writeShards (s.recoverCells Dinv)).markPresent s.absentSet (BitVec.ofNat 32 s.recLen))) := by
  simp only [exec, execRsReconstruct, h, if_neg ha, hD]
  rfl

/-! ### The configuration and the slot count (44_rs_engine.md R246, R247) -/

theorem engineCheck_of_unconfigured (h : s.status.configured = false) : s.engineCheck = some .notConfigured := if_pos h

theorem engineCheck_of_slotCount_ne (hc : s.status.configured = true) (h : s.slotCount.toNat ≠ s.nTotal) :
    s.engineCheck = some .invalidShardCount := by
  rw [State.engineCheck, if_neg (by simp [hc]), if_pos h]

/-- All three engine commands fail as the check that comes first does. -/
theorem exec_of_engineCheck_eq_some (h : s.engineCheck = some e) :
    exec .rsEncode s = .next (afterFailure e.code s) ∧
      exec .rsVerify s = .next (afterFailure e.code (withVerifyOk false s)) ∧
      exec .rsReconstruct s = .next (afterFailure e.code s) := by
  have hset : s.setCheck = some e := by rw [State.setCheck, h]
  have hrec : s.recCheck = some e := by rw [State.recCheck, h]
  exact ⟨exec_rsEncode_of_setCheck_eq_some hset, exec_rsVerify_of_setCheck_eq_some hset,
    exec_rsReconstruct_of_recCheck_eq_some hrec⟩

/-! ### The lengths (44_rs_engine.md R258) -/

theorem engWidth_eq_w16_iff : s.engWidth = .w16 ↔ s.status.engW16 = true := by
  unfold State.engWidth
  split <;> simp_all

theorem badLength_iff : badLength s.engWidth len = true ↔ len = 0 ∨ (s.status.engW16 = true ∧ len % 2 = 1) := by
  simp [badLength, engWidth_eq_w16_iff]

theorem badLength_eq_false_iff :
    badLength s.engWidth len = false ↔ len ≠ 0 ∧ (s.status.engW16 = true → len % 2 = 0) := by
  rw [← Bool.not_eq_true, badLength_iff, not_or, not_and, Nat.mod_two_not_eq_one]

/-- A length that passes is that of whole symbols (44_rs_engine.md R258). -/
theorem symCount_mul_symBytes (h : badLength s.engWidth len = false) :
    s.symCount len * symBytes s.engWidth = len := by
  refine Nat.div_mul_cancel ?_
  cases hw : s.engWidth with
  | w8 => exact one_dvd len
  | w16 => exact Nat.dvd_of_mod_eq_zero ((badLength_eq_false_iff.1 h).2 (engWidth_eq_w16_iff.1 hw))

/-! ### The set of encode and verify (44_rs_engine.md R256, R258, R260) -/

theorem setCheck_of_absent (he : s.engineCheck = none) (hk : k < s.nTotal) (h : s.slotPresentAt [0] k = false) :
    s.setCheck = some .invalidShardCount := by
  simp only [State.setCheck, he]
  exact if_pos (List.any_eq_true.2 ⟨k, List.mem_range.2 hk, by simp [h]⟩)

theorem setCheck_of_present (he : s.engineCheck = none) (hp : ∀ k < s.nTotal, s.slotPresentAt [0] k = true) :
    s.setCheck = if (List.range s.nTotal).any (fun k => decide ((s.slotLenAt [1] k).toNat ≠ s.setLen))
      || badLength s.engWidth s.setLen then some .incorrectShardSize else none := by
  simp only [State.setCheck, he]
  exact if_neg (by simpa using hp)

theorem setCheck_of_wrong_length (he : s.engineCheck = none) (hp : ∀ k < s.nTotal, s.slotPresentAt [0] k = true)
    (h : (∃ k < s.nTotal, (s.slotLenAt [1] k).toNat ≠ s.setLen) ∨ badLength s.engWidth s.setLen = true) :
    s.setCheck = some .incorrectShardSize := by
  rw [setCheck_of_present he hp]
  exact if_pos (by simpa using h)

theorem setCheck_eq_none (he : s.engineCheck = none) (hp : ∀ k < s.nTotal, s.slotPresentAt [0] k = true)
    (hl : ∀ k < s.nTotal, (s.slotLenAt [1] k).toNat = s.setLen) (hb : badLength s.engWidth s.setLen = false) :
    s.setCheck = none := by
  rw [setCheck_of_present he hp]
  exact if_neg (by simpa [hb] using hl)

/-! ### The present and the absent slots (44_rs_engine.md R270, R274, R276) -/

theorem mem_presentSet : k ∈ s.presentSet ↔ k < s.nTotal ∧ s.slotPresentAt [0] k = true := by
  rw [State.presentSet, List.mem_filter, List.mem_range]

theorem mem_absentSet : k ∈ s.absentSet ↔ k < s.nTotal ∧ s.slotPresentAt [0] k = false := by
  rw [State.absentSet, List.mem_filter, List.mem_range, Bool.not_eq_true']

/-- Every slot of the set is in one of the two. -/
theorem length_presentSet_add_length_absentSet (s : State) :
    s.presentSet.length + s.absentSet.length = s.nTotal := by
  have h := (List.range s.nTotal).length_eq_length_filter_add fun k => s.slotPresentAt [0] k
  rw [List.length_range] at h
  exact h.symm

theorem recLen_of_presentSet {rest : List Nat} (h : s.presentSet = p :: rest) :
    s.recLen = (s.slotLenAt [0] p).toNat := by
  rw [State.recLen, h]

theorem recLenBad_iff : s.recLenBad = true ↔ ∃ p rest, s.presentSet = p :: rest ∧
    ((∃ k ∈ s.presentSet, s.slotLenAt [1] k ≠ s.slotLenAt [0] p) ∨ s.slotLenAt [0] p = 0 ∨
      (s.status.engW16 = true ∧ (s.slotLenAt [0] p).toNat % 2 = 1)) := by
  unfold State.recLenBad
  cases hset : s.presentSet with
  | nil => simp
  | cons p rest =>
    have hzero : (s.slotLenAt [0] p).toNat = 0 ↔ s.slotLenAt [0] p = 0 := BitVec.toNat_inj (y := 0)
    simp only [List.isEmpty_cons, Bool.not_false, Bool.true_and, Bool.or_eq_true, List.any_eq_true, decide_eq_true_eq,
      recLen_of_presentSet hset, badLength_iff, hzero, ne_eq, BitVec.toNat_inj]
    constructor
    · exact fun h => ⟨p, rest, rfl, h⟩
    · rintro ⟨p', rest', heq, h⟩
      cases heq
      exact h

theorem recCheck_of_bad_length (he : s.engineCheck = none) (h : s.recLenBad = true) :
    s.recCheck = some .incorrectShardSize := by
  simp only [State.recCheck, he, h, if_true]

theorem recCheck_of_too_few (he : s.engineCheck = none) (h : s.recLenBad = false)
    (ha : s.nParity < s.absentSet.length) : s.recCheck = some .tooFewShardsPresent := by
  simp [State.recCheck, he, h, ha]

theorem recCheck_eq_none (he : s.engineCheck = none) (h : s.recLenBad = false)
    (ha : s.absentSet.length ≤ s.nParity) : s.recCheck = none := by
  simp [State.recCheck, he, h, ha]

end Sys2Proof.Machine
end

section
/-! PROOFS. The order of the checks of the engine commands (44_rs_engine.md R246, R247, R256, R258, R274, R276). -/

namespace Sys2Proof.Machine

/-- Settles O28, by the check that comes first. -/
theorem engineCommandsCheckInstanceAndCount : Obligations.EngineCommandsCheckInstanceAndCount := fun _ =>
  ⟨fun hc => exec_of_engineCheck_eq_some (engineCheck_of_unconfigured hc),
    fun hc hn => exec_of_engineCheck_eq_some (engineCheck_of_slotCount_ne hc hn)⟩

/-- Settles O29, by the two checks in their order. -/
theorem encodeAndVerifyCheckTheSet : Obligations.EncodeAndVerifyCheckTheSet := by
  intro s hc hn len
  have he : s.engineCheck = none := engineCheck_eq_none_iff.2 ⟨hc, hn⟩
  constructor
  · rintro ⟨k, hk, habs⟩
    have hcheck := setCheck_of_absent he (hk.trans_eq hn) habs
    exact ⟨exec_rsEncode_of_setCheck_eq_some hcheck, exec_rsVerify_of_setCheck_eq_some hcheck⟩
  · rw [hn]
    intro hp hlen
    have hcheck := setCheck_of_wrong_length he hp (hlen.imp_right badLength_iff.2)
    exact ⟨exec_rsEncode_of_setCheck_eq_some hcheck, exec_rsVerify_of_setCheck_eq_some hcheck⟩

/-- Settles O33: the length check is that of the present slots, and the absent-count check comes after it. -/
theorem reconstructChecksLengthThenCount : Obligations.ReconstructChecksLengthThenCount := by
  intro s hc hn bad
  have he : s.engineCheck = none := engineCheck_eq_none_iff.2 ⟨hc, hn⟩
  have hbad : s.recLenBad = true ↔ bad := recLenBad_iff
  constructor
  · exact fun h => exec_rsReconstruct_of_recCheck_eq_some (recCheck_of_bad_length he (hbad.2 h))
  · intro h hfew
    have hgood : s.recLenBad = false := Bool.eq_false_iff.2 fun h' => h (hbad.1 h')
    exact exec_rsReconstruct_of_recCheck_eq_some (recCheck_of_too_few he hgood hfew)

end Sys2Proof.Machine
end

section
/-! SUPPORT. Symbols and their bytes (00_scope.md R17, R18): a symbol is a field element with the shard's bytes, and
writing the symbols of some shards writes exactly the bytes of those shards. -/

namespace Sys2Proof.Machine

variable {s s' : State} {w : Width} {use use' ks : List Nat} {k n o t : Nat} {v a b : Half} {m : Memory}
  {kv : Host.Cell} {f : Nat → Nat → Half} {g : Nat → Half}

/-! ### The bytes of a symbol -/

theorem symBytes_pos (w : Width) : 0 < symBytes w := by cases w <;> decide

theorem setWidth_eq_byteOf (v : Half) : v.setWidth 8 = byteOf v 0 :=
  BitVec.setWidth_eq_extractLsb' (by decide)

theorem byteOf_shiftRight (v : Half) (i : Nat) : byteOf (v >>> 8) i = byteOf v (i + 1) := by
  apply BitVec.eq_of_getLsbD_eq
  intro j _
  simp only [byteOf, BitVec.getLsbD_extractLsb', BitVec.getLsbD_ushiftRight]
  congr 2
  ring

/-- A field element is known by its `b` bytes. -/
theorem IsElem.eq_of_byteOf_eq (ha : IsElem w a) (hb : IsElem w b) (h : ∀ i < symBytes w, byteOf a i = byteOf b i) :
    a = b := by
  refine BitVec.eq_of_getLsbD_eq fun j _ => ?_
  by_cases hj : j < w.bits
  · have hbits : w.bits = 8 * symBytes w := by cases w <;> rfl
    have hbyte := congrArg (·.getLsbD (j % 8)) (h (j / 8) (by omega))
    have hlt : j % 8 < 8 := Nat.mod_lt j (by decide)
    simpa [byteOf, hlt, Nat.div_add_mod] using hbyte
  · rw [isElem_iff_getLsbD.1 ha j (not_lt.1 hj), isElem_iff_getLsbD.1 hb j (not_lt.1 hj)]

theorem isElem_symbol (s : State) (w : Width) (use : List Nat) (k t : Nat) : IsElem w (s.symbol w use k t) := by
  cases w with
  | w8 => exact lt_of_le_of_lt (toNat_ofNat_le 16 _ le_rfl) (s.shardAt use k t).isLt
  | w16 => exact BitVec.isLt _

/-- Byte `i` of a symbol is the byte of the shard there (20_memory.md R105). -/
theorem byteOf_symbol (s : State) (use : List Nat) (k t : Nat) {i : Nat} (hi : i < symBytes w) :
    byteOf (s.symbol w use k t) i = s.shardAt use k (symBytes w * t + i) := by
  cases w with
  | w8 =>
    obtain rfl : i = 0 := Nat.lt_one_iff.1 hi
    have hb := (s.shardAt use k t).isLt
    rw [show symBytes .w8 * t + 0 = t from Nat.one_mul t]
    apply BitVec.eq_of_toNat_eq
    simp only [byteOf, State.symbol, BitVec.extractLsb'_toNat, BitVec.toNat_ofNat, Nat.mul_zero, Nat.shiftRight_zero]
    omega
  | w16 =>
    have hlow := (s.shardAt use k (2 * t)).isLt
    have hhigh := (s.shardAt use k (2 * t + 1)).isLt
    apply BitVec.eq_of_toNat_eq
    obtain rfl | rfl : i = 0 ∨ i = 1 := Nat.le_one_iff_eq_zero_or_eq_one.1 (Nat.le_of_lt_succ hi)
    · rw [show symBytes .w16 * t + 0 = 2 * t from rfl]
      simp only [byteOf, State.symbol, BitVec.extractLsb'_toNat, BitVec.toNat_ofNat, Nat.mul_zero, Nat.shiftRight_zero]
      omega
    · rw [show symBytes .w16 * t + 1 = 2 * t + 1 from rfl]
      simp only [byteOf, State.symbol, BitVec.extractLsb'_toNat, BitVec.toNat_ofNat, Nat.mul_one,
        Nat.shiftRight_eq_div_pow]
      omega

/-- The symbol whose bytes a shard holds. -/
theorem symbol_eq_of_shardAt_eq (hv : IsElem w v)
    (h : ∀ i < symBytes w, s.shardAt use k (symBytes w * t + i) = byteOf v i) : s.symbol w use k t = v :=
  (isElem_symbol s w use k t).eq_of_byteOf_eq hv fun i hi => (byteOf_symbol s use k t hi).trans (h i hi)

/-- Equal bytes make equal symbols. -/
theorem symbol_congr (h : ∀ i < symBytes w,
    s.shardAt use k (symBytes w * t + i) = s'.shardAt use' k (symBytes w * t + i)) :
    s.symbol w use k t = s'.symbol w use' k t :=
  symbol_eq_of_shardAt_eq (isElem_symbol s' w use' k t) fun i hi => (h i hi).trans (byteOf_symbol s' use' k t hi).symm

/-- Byte `o` of a shard is byte `o mod b` of its symbol `o / b`. -/
theorem byteOf_symbol_div (s : State) (w : Width) (use : List Nat) (k o : Nat) :
    byteOf (s.symbol w use k (o / symBytes w)) (o % symBytes w) = s.shardAt use k o := by
  rw [byteOf_symbol s use k _ (Nat.mod_lt o (symBytes_pos w)), Nat.div_add_mod]

/-- The bytes of symbol `t` of a shard of `n` symbols lie in the shard. -/
theorem symByte_lt {i : Nat} (ht : t < n) (hi : i < symBytes w) : symBytes w * t + i < n * symBytes w :=
  calc symBytes w * t + i < symBytes w * (t + 1) := by rw [Nat.mul_succ]; omega
    _ ≤ symBytes w * n := Nat.mul_le_mul_left _ ht
    _ = n * symBytes w := Nat.mul_comm _ _

/-! ### Writing symbols -/

/-- The writes of a symbol are its bytes, the low one first (00_scope.md R17). -/
theorem mem_memWrite_iff : kv ∈ memWrite k o n v ↔ ∃ i < n, kv = (shKey k (o + i), byteOf v i) := by
  induction n generalizing o v with
  | zero => simp [memWrite]
  | succ n ih =>
    rw [memWrite, List.mem_cons, ih, setWidth_eq_byteOf]
    constructor
    · rintro (rfl | ⟨i, hi, rfl⟩)
      · exact ⟨0, Nat.succ_pos n, rfl⟩
      · exact ⟨i + 1, Nat.succ_lt_succ hi, by rw [byteOf_shiftRight, Nat.add_assoc, Nat.add_comm 1]⟩
    · rintro ⟨_ | i, hi, rfl⟩
      · exact .inl rfl
      · exact .inr ⟨i, Nat.lt_of_succ_lt_succ hi, by rw [byteOf_shiftRight, Nat.add_assoc, Nat.add_comm 1]⟩

/-- The writes of a shard: byte `o` is byte `o mod b` of symbol `o / b` (00_scope.md R18). -/
theorem mem_shardCells_iff : kv ∈ shardCells w k n g ↔
    ∃ o < n * symBytes w, kv = (shKey k o, byteOf (g (o / symBytes w)) (o % symBytes w)) := by
  have hb := symBytes_pos w
  simp only [shardCells, List.mem_flatMap, List.mem_range, mem_memWrite_iff]
  constructor
  · rintro ⟨t, ht, i, hi, rfl⟩
    refine ⟨symBytes w * t + i, symByte_lt ht hi, ?_⟩
    rw [Nat.mul_add_div hb, Nat.div_eq_of_lt hi, Nat.mul_add_mod, Nat.mod_eq_of_lt hi, Nat.add_zero]
  · rintro ⟨o, ho, rfl⟩
    exact ⟨o / symBytes w, Nat.div_lt_of_lt_mul (Nat.mul_comm n _ ▸ ho), o % symBytes w, Nat.mod_lt o hb, by
      rw [Nat.div_add_mod]⟩

/-- The writes of the symbols `f k t`, for `t < n`, of every shard `k` of `ks`. -/
def setCells (w : Width) (ks : List Nat) (n : Nat) (f : Nat → Nat → Half) : List Host.Cell :=
  ks.flatMap fun k => shardCells w k n (f k)

theorem mem_setCells_iff : kv ∈ setCells w ks n f ↔
    ∃ k ∈ ks, ∃ o < n * symBytes w, kv = (shKey k o, byteOf (f k (o / symBytes w)) (o % symBytes w)) := by
  simp only [setCells, List.mem_flatMap, mem_shardCells_iff]

theorem get?_setCells_inside (hn : n * symBytes w ≤ 2 ^ 32) (hk : k ∈ ks) (ho : o < n * symBytes w) :
    Store.get? (Store.setAll m (setCells w ks n f)) (shKey k o) =
      some (byteOf (f k (o / symBytes w)) (o % symBytes w)) := by
  refine Store.get?_setAll_of_mem _ _ _ _ (mem_setCells_iff.2 ⟨k, hk, o, ho, rfl⟩) fun kv hkv heq => ?_
  obtain ⟨k', -, o', ho', rfl⟩ := mem_setCells_iff.1 hkv
  obtain ⟨rfl, rfl⟩ := shKey_injective (ho'.trans_le hn) (ho.trans_le hn) heq
  rfl

theorem get?_setCells_outside (hn : n * symBytes w ≤ 2 ^ 32) (ho : o < 2 ^ 32)
    (h : k ∉ ks ∨ n * symBytes w ≤ o) :
    Store.get? (Store.setAll m (setCells w ks n f)) (shKey k o) = Store.get? m (shKey k o) := by
  refine Store.get?_setAll_of_notMem _ _ _ fun kv hkv heq => ?_
  obtain ⟨k', hk', o', ho', rfl⟩ := mem_setCells_iff.1 hkv
  obtain ⟨rfl, rfl⟩ := shKey_injective (ho'.trans_le hn) ho heq
  exact h.elim (absurd hk') (not_le.2 ho')

/-! ### The parity shards and the absent shards -/

/-- The slots of the parity shards (44_rs_engine.md R245). -/
def State.paritySlots (s : State) : List Nat := (List.range s.nParity).map (s.nData + ·)

theorem mem_paritySlots : k ∈ s.paritySlots ↔ s.nData ≤ k ∧ k < s.nTotal := by
  simp only [State.paritySlots, List.mem_map, List.mem_range, State.nTotal]
  constructor
  · rintro ⟨p, hp, rfl⟩
    omega
  · exact fun h => ⟨k - s.nData, by omega, by omega⟩

theorem encodeCells_eq (s : State) : s.encodeCells =
    setCells s.engWidth s.paritySlots (s.symCount s.setLen) fun k t => s.parity (k - s.nData) t := by
  simp [State.encodeCells, setCells, State.paritySlots, List.flatMap_map]

theorem recoverCells_eq (s : State) (Dinv : Mat) : s.recoverCells Dinv =
    setCells s.engWidth s.absentSet (s.symCount s.recLen) (s.recoveredSym Dinv) := rfl

end Sys2Proof.Machine
end

section
/-! PROOFS. RS_ENCODE and RS_VERIFY on a set that passes the checks (44_rs_engine.md R260, R261, R265 to R267), and what
does not affect a verify (R248). -/

namespace Sys2Proof.Machine

variable {s : State} {k o : Nat} {len : Word}

/-! ### RS_ENCODE -/

/-- The bytes of a shard of whole symbols are all its bytes. -/
theorem symCount_mul_symBytes_setLen (h : badLength s.engWidth s.setLen = false) :
    s.symCount s.setLen * symBytes s.engWidth = s.setLen ∧ s.setLen ≤ 2 ^ 32 :=
  ⟨symCount_mul_symBytes h, (BitVec.isLt _).le⟩

/-- Encode leaves byte `o mod b` of the parity symbol `o / b` at byte `o` (44_rs_engine.md R260). -/
theorem byte?_encode_of_parity (hb : badLength s.engWidth s.setLen = false) (hk : k ∈ s.paritySlots)
    (ho : o < s.setLen) : (s.writeShards s.encodeCells).byte? k o =
      some (byteOf (s.parity (k - s.nData) (o / symBytes s.engWidth)) (o % symBytes s.engWidth)) := by
  obtain ⟨hlen, hmax⟩ := symCount_mul_symBytes_setLen hb
  rw [encodeCells_eq]
  exact get?_setCells_inside (hlen.trans_le hmax) hk (ho.trans_eq hlen.symm)

/-- Encode leaves every byte outside the parity shards (44_rs_engine.md R261). -/
theorem byte?_encode_of_other (hb : badLength s.engWidth s.setLen = false) (ho : o < 2 ^ 32)
    (h : k ∉ s.paritySlots ∨ s.setLen ≤ o) : (s.writeShards s.encodeCells).byte? k o = s.byte? k o := by
  obtain ⟨hlen, hmax⟩ := symCount_mul_symBytes_setLen hb
  rw [encodeCells_eq]
  exact get?_setCells_outside (hlen.trans_le hmax) ho (h.imp_right hlen.trans_le)

/-- Settles O30: the parity symbols are written byte by byte. -/
theorem rsEncodeResult : Obligations.RsEncodeResult := by
  intro s hc hn hpres hlens h0 hodd par
  have hbad : badLength s.engWidth s.setLen = false := badLength_eq_false_iff.2 ⟨h0, hodd⟩
  have hcheck := setCheck_eq_none (engineCheck_eq_none_iff.2 ⟨hc, hn⟩) hpres hlens hbad
  refine ⟨_, exec_rsEncode_of_setCheck_eq_none hcheck, fun p hp o ho => ?_, fun k o ho h => ?_, rfl⟩
  · have hk : s.nData + p ∈ s.paritySlots :=
      mem_paritySlots.2 ⟨Nat.le_add_right _ _, Nat.add_lt_add_left hp _⟩
    have hpar : s.parity p (o / symBytes s.engWidth) = par p (o / symBytes s.engWidth) := s.parity_eq p _
    have hbyte := byte?_encode_of_parity hbad hk ho
    rw [Nat.add_sub_cancel_left, hpar] at hbyte
    exact hbyte
  · refine byte?_encode_of_other hbad ho ?_
    rw [mem_paritySlots, not_and_or, not_le, not_lt, or_assoc]
    exact h

/-! ### RS_VERIFY -/

/-- The comparison of every stored parity symbol with the recomputed one (44_rs_engine.md R265). -/
theorem parityMatches_iff : s.parityMatches = true ↔ ∀ p < s.nParity, ∀ t < s.symCount s.setLen,
    s.symbol s.engWidth [0] (s.nData + p) t = s.parity p t := by
  simp only [State.parityMatches, List.all_eq_true, List.mem_range, beq_iff_eq, State.symAt_eq_symbol]

/-- Settles O31: the outcome of the comparison is `VERIFY_OK`. -/
theorem rsVerifyResult : Obligations.RsVerifyResult := by
  intro s hc hn hpres hlens h0 hodd par
  have hbad : badLength s.engWidth s.setLen = false := badLength_eq_false_iff.2 ⟨h0, hodd⟩
  have hcheck := setCheck_eq_none (engineCheck_eq_none_iff.2 ⟨hc, hn⟩) hpres hlens hbad
  have hpar (p t : Nat) : s.parity p t = par p t := s.parity_eq p t
  refine ⟨s.parityMatches, exec_rsVerify_of_setCheck_eq_none hcheck, ?_⟩
  simp only [parityMatches_iff, hpar]
  rfl

/-! ### A set with written descriptors -/

theorem FullSet.engineCheck (h : FullSet s len) : s.engineCheck = none := by
  obtain ⟨hc, hn, -⟩ := h
  exact engineCheck_eq_none_iff.2 ⟨hc, hn⟩

theorem FullSet.slotPresentAt (h : FullSet s len) (use : List Nat) (hk : k < s.nTotal) :
    s.slotPresentAt use k = true := by
  obtain ⟨-, -, -, -, hslots⟩ := h
  exact State.slotPresentAt_of_written use (hslots k hk).1

theorem FullSet.slotLenAt (h : FullSet s len) (use : List Nat) (hk : k < s.nTotal) : s.slotLenAt use k = len := by
  obtain ⟨-, -, -, -, hslots⟩ := h
  exact State.slotLenAt_of_written use (hslots k hk).2

theorem FullSet.badLength (h : FullSet s len) : badLength s.engWidth len.toNat = false := by
  obtain ⟨-, -, h0, hodd, -⟩ := h
  exact badLength_eq_false_iff.2 ⟨fun hz => h0 (BitVec.eq_of_toNat_eq hz), hodd⟩

theorem FullSet.setLen (h : FullSet s len) (hpos : 1 ≤ s.nTotal) : s.setLen = len.toNat :=
  congrArg BitVec.toNat (h.slotLenAt [0] hpos)

theorem FullSet.setCheck (h : FullSet s len) (hpos : 1 ≤ s.nTotal) : s.setCheck = none := by
  have hlen := h.setLen hpos
  exact setCheck_eq_none h.engineCheck (fun k hk => h.slotPresentAt [0] hk)
    (fun k hk => (congrArg BitVec.toNat (h.slotLenAt [1] hk)).trans hlen.symm) (hlen ▸ h.badLength)

/-- The contents of the shard slots: shard memory and the descriptors. -/
structure Slots where
  sh : Memory
  lens : Store Word
  present : Store Bool

/-- `s` with other contents of the shard slots. -/
def State.withSlots (s : State) (M : Slots) : State :=
  { s with sh := M.sh, slotLen := M.lens, slotPresent := M.present }

variable {M : Slots}

/-- Other contents, with the same descriptors in the set, make another full set. -/
theorem FullSet.withSlots (h : FullSet s len)
    (hslots : ∀ k < s.nTotal, Store.get? M.lens k = Store.get? s.slotLen k ∧
      Store.get? M.present k = Store.get? s.slotPresent k) : FullSet (s.withSlots M) len := by
  obtain ⟨hc, hn, h0, hodd, hset⟩ := h
  refine ⟨hc, hn, h0, hodd, fun k hk => ?_⟩
  obtain ⟨hlen, hpres⟩ := hslots k hk
  exact ⟨hpres.trans (hset k hk).1, hlen.trans (hset k hk).2⟩

/-- Memories that agree below the length of the set hold the same symbols. -/
theorem symbol_withSlots (hsh : ∀ o < len.toNat, Store.get? M.sh (shKey k o) = s.byte? k o) (use : List Nat) {t : Nat}
    (ht : t < s.symCount len.toNat) :
    (s.withSlots M).symbol s.engWidth use k t = s.symbol s.engWidth use k t := by
  refine symbol_congr fun i hi => ?_
  have ho := (symByte_lt ht hi).trans_le (symCount_mul_symBytes_le s _)
  simp only [State.shardAt, State.withSlots, hsh _ ho, State.byte?]

/-- Settles O37: both runs pass the checks, and read the same symbols. -/
theorem verifyIgnoresWhatLiesOutsideTheSet : Obligations.VerifyIgnoresWhatLiesOutsideTheSet := by
  intro s t t' len sh lens present hfull hpos hsh hslots ht ht'
  let s' := s.withSlots ⟨sh, lens, present⟩
  have hfull' : FullSet s' len := hfull.withSlots hslots
  have hlen : s'.setLen = s.setLen := (hfull'.setLen hpos).trans (hfull.setLen hpos).symm
  have hsym {k τ : Nat} (use : List Nat) (hk : k < s.nTotal) (hτ : τ < s.symCount s.setLen) :
      s'.symbol s.engWidth use k τ = s.symbol s.engWidth use k τ :=
    symbol_withSlots (hsh k hk) use (hfull.setLen hpos ▸ hτ)
  have hpar (p : Nat) {τ : Nat} (hτ : τ < s.symCount s.setLen) : s'.parity p τ = s.parity p τ := by
    rw [s'.parity_eq, s.parity_eq]
    exact xorSum_congr fun c hc => congrArg _ (hsym [p] (hc.trans_le (Nat.le_add_right _ _)) hτ)
  have hmatch : s'.parityMatches = s.parityMatches := by
    rw [Bool.eq_iff_iff, parityMatches_iff, parityMatches_iff, hlen]
    refine forall₂_congr fun p hp => forall₂_congr fun τ hτ => ?_
    rw [hpar p hτ]
    exact Eq.congr_left (hsym [0] (Nat.add_lt_add_left hp _) hτ)
  cases (exec_rsVerify_of_setCheck_eq_none (hfull.setCheck hpos)).symm.trans ht
  cases (exec_rsVerify_of_setCheck_eq_none (hfull'.setCheck hpos)).symm.trans ht'
  rw [hmatch]
  rfl

end Sys2Proof.Machine
end

section
/-! PROOFS. RS_RECONSTRUCT on a set that passes the checks (44_rs_engine.md R275, R277 to R280). -/

namespace Sys2Proof.Machine

variable {s : State} {k o p t : Nat} {rest : List Nat} {Dinv : Mat} {len : Word}

/-! ### The checks -/

theorem recLenBad_eq_false (hset : s.presentSet = p :: rest)
    (hl : ∀ k ∈ s.presentSet, s.slotLenAt [1] k = s.slotLenAt [0] p)
    (hb : badLength s.engWidth (s.slotLenAt [0] p).toNat = false) : s.recLenBad = false := by
  obtain ⟨h0, hodd⟩ := badLength_eq_false_iff.1 hb
  rw [Bool.eq_false_iff, Ne, recLenBad_iff]
  rintro ⟨p', rest', heq, hbad⟩
  obtain rfl : p = p' := (List.cons.inj (hset.symm.trans heq)).1
  obtain ⟨k, hk, hne⟩ | hz | ⟨h16, h1⟩ := hbad
  · exact hne (hl k hk)
  · exact h0 (congrArg BitVec.toNat hz)
  · exact Nat.zero_ne_one ((hodd h16).symm.trans h1)

theorem presentSet_eq_cons (hk : k ∈ s.presentSet) : ∃ p rest, s.presentSet = p :: rest :=
  List.exists_cons_of_ne_nil (List.ne_nil_of_mem hk)

/-- Settles O34: the present slots are all the slots, and their lengths pass. -/
theorem reconstructOfFullSetWritesNothing : Obligations.ReconstructOfFullSetWritesNothing := by
  intro s len hfull hpos
  have habsent : s.absentSet = [] := List.eq_nil_iff_forall_not_mem.2 fun k hk => by
    obtain ⟨hlt, hfalse⟩ := mem_absentSet.1 hk
    exact absurd ((hfull.slotPresentAt [0] hlt).symm.trans hfalse) (by decide)
  obtain ⟨p, rest, hset⟩ := presentSet_eq_cons (mem_presentSet.2 ⟨hpos, hfull.slotPresentAt [0] hpos⟩)
  have hlen {k : Nat} (use : List Nat) (hk : k ∈ s.presentSet) : s.slotLenAt use k = len :=
    hfull.slotLenAt use (mem_presentSet.1 hk).1
  have hp : s.slotLenAt [0] p = len := hlen [0] (hset ▸ List.mem_cons_self)
  have hgood : s.recLenBad = false :=
    recLenBad_eq_false hset (fun k hk => (hlen [1] hk).trans hp.symm) (hp ▸ hfull.badLength)
  exact exec_rsReconstruct_of_absentSet_eq_nil
    (recCheck_eq_none hfull.engineCheck hgood (by simp [habsent])) habsent

/-! ### The recovered symbols -/

/-- The `j`-th selected slot (44_rs_engine.md R277). -/
def State.pick (s : State) (j : Nat) : Nat := s.selected.getD j 0

theorem length_selected (h : s.nData ≤ s.presentSet.length) : s.selected.length = s.nData :=
  (List.length_take ..).trans (Nat.min_eq_left h)

/-- The matrix to invert holds the selected rows of `E` (44_rs_engine.md R277, R278). -/
theorem decodeMat_eq (h : s.nData ≤ s.presentSet.length) : s.decodeMat =
    matInv s.engWidth (Mat.ofFn s.nData s.nData fun j => s.encEl (s.pick j)) := by
  have hlt : ∀ k ∈ s.selected, k < s.nTotal := fun k hk => (mem_presentSet.1 (List.mem_of_mem_take hk)).1
  simp only [State.decodeMat, State.encMat, submatrix_ofFn hlt, length_selected h]
  rfl

/-- With at most `n_parity` slots absent, at least `n_data` are present (44_rs_engine.md R276, R277). -/
theorem nData_le_length_presentSet (h : s.absentSet.length ≤ s.nParity) : s.nData ≤ s.presentSet.length := by
  have hsum := length_presentSet_add_length_absentSet s
  rw [State.nTotal] at hsum
  omega

theorem encEl_eq_lowPart (s : State) (r c : Nat) : s.encEl r c = lowPart s.engWidth (s.elAt [0] .enc r c) :=
  truncTo_eq_lowPart _ _

/-- A recovered data symbol is its row of `Dinv` times the selected symbols (44_rs_engine.md R278). -/
theorem recoveredData_eq (s : State) (Dinv : Mat) (t c : Nat) : s.recoveredData Dinv t c =
    xorSum s.nData fun j => gfMul s.engWidth (Dinv.at c j) (s.symbol s.engWidth [0] (s.pick j) t) := by
  simp only [State.recoveredData, State.selectedSym, State.symAt_eq_symbol, dot, State.pick]

/-- A recovered parity symbol is its row of `E` times the recovered data symbols (44_rs_engine.md R278). -/
theorem recoveredSym_eq (s : State) (Dinv : Mat) (k t : Nat) : s.recoveredSym Dinv k t =
    if k < s.nData then s.recoveredData Dinv t k
    else xorSum s.nData fun c =>
      gfMul s.engWidth (lowPart s.engWidth (s.elAt [0] .enc k c)) (s.recoveredData Dinv t c) := by
  simp only [State.recoveredSym, encEl_eq_lowPart, dot]

/-! ### The writes -/

/-- A list of writes of one value. -/
theorem Store.get?_setAll_const {α : Type} (m : Store α) (l : List Nat) (v : α) (k : Nat) :
    Store.get? (Store.setAll m (l.map fun j => (j, v))) k = if k ∈ l then some v else Store.get? m k := by
  split
  · next h =>
    refine Store.get?_setAll_of_mem _ _ _ _ (List.mem_map_of_mem h) fun kv hkv _ => ?_
    obtain ⟨j, -, rfl⟩ := List.mem_map.1 hkv
    rfl
  · next h =>
    refine Store.get?_setAll_of_notMem _ _ _ fun kv hkv hne => ?_
    obtain ⟨j, hj, rfl⟩ := List.mem_map.1 hkv
    exact h (hne ▸ hj)

/-- From `s` to `t`, RS_RECONSTRUCT completed with the symbols `f k t` in the absent slots `k`, which it marked present
with length `len`, and changed nothing else (44_rs_engine.md R280). -/
structure Rebuilds (s t : State) (len : Word) (f : Nat → Nat → Half) : Prop where
  bytes : ∀ k ∈ s.absentSet, ∀ o < len.toNat, t.byte? k o =
    some (byteOf (f k (o / symBytes s.engWidth)) (o % symBytes s.engWidth))
  otherBytes : ∀ k o, o < 2 ^ 32 → k ∉ s.absentSet ∨ len.toNat ≤ o → t.byte? k o = s.byte? k o
  descriptors : ∀ k ∈ s.absentSet, Store.get? t.slotLen k = some len ∧ Store.get? t.slotPresent k = some true
  otherDescriptors : ∀ k, k ∉ s.absentSet → Store.get? t.slotLen k = Store.get? s.slotLen k ∧
    Store.get? t.slotPresent k = Store.get? s.slotPresent k
  frame : t = afterSuccess { s with sh := t.sh, slotLen := t.slotLen, slotPresent := t.slotPresent }

/-- The effect of RS_RECONSTRUCT on a set with an absent slot. -/
theorem rebuilds_recovered (Dinv : Mat) (hlen : s.recLen = len.toNat) (hb : badLength s.engWidth len.toNat = false) :
    Rebuilds s (afterSuccess ((s.writeShards (s.recoverCells Dinv)).markPresent s.absentSet (BitVec.ofNat 32 s.recLen)))
      len (s.recoveredSym Dinv) := by
  have hbytes : s.symCount s.recLen * symBytes s.engWidth = len.toNat := by rw [hlen, symCount_mul_symBytes hb]
  have hfit : s.symCount s.recLen * symBytes s.engWidth ≤ 2 ^ 32 := hbytes.trans_le (BitVec.isLt _).le
  have hmark : BitVec.ofNat 32 s.recLen = len := by rw [hlen, BitVec.ofNat_toNat, BitVec.setWidth_eq]
  rw [hmark, recoverCells_eq]
  exact
  { bytes := fun _ hk _ ho => get?_setCells_inside hfit hk (ho.trans_eq hbytes.symm)
    otherBytes := fun _ _ ho h => get?_setCells_outside hfit ho (h.imp_right hbytes.trans_le)
    descriptors := fun k hk =>
      ⟨(Store.get?_setAll_const _ _ _ k).trans (if_pos hk), (Store.get?_setAll_const _ _ _ k).trans (if_pos hk)⟩
    otherDescriptors := fun k hk =>
      ⟨(Store.get?_setAll_const _ _ _ k).trans (if_neg hk), (Store.get?_setAll_const _ _ _ k).trans (if_neg hk)⟩
    frame := rfl }

/-- Settles O35: the recovered symbols are written byte by byte, and the absent slots marked present. -/
theorem rsReconstructResult : Obligations.RsReconstructResult := by
  intro s Dinv p rest hc hn hset hl h0 hodd hpos hmax w b S E hinv x recovered
  have hbad : badLength s.engWidth (s.slotLenAt [0] p).toNat = false :=
    badLength_eq_false_iff.2 ⟨fun hz => h0 (BitVec.eq_of_toNat_eq hz), hodd⟩
  have hcheck : s.recCheck = none :=
    recCheck_eq_none (engineCheck_eq_none_iff.2 ⟨hc, hn⟩) (recLenBad_eq_false hset hl hbad) hmax
  have hdecode : s.decodeMat = .ok Dinv := by
    have henc : s.encEl = E := funext₂ (encEl_eq_lowPart s)
    rw [decodeMat_eq (nData_le_length_presentSet hmax), henc]
    exact hinv
  have hsym : s.recoveredSym Dinv = recovered := by
    funext k t
    simp only [recoveredSym_eq, recoveredData_eq]
    rfl
  have h := rebuilds_recovered Dinv (recLen_of_presentSet hset) hbad
  rw [hsym] at h
  exact ⟨_, exec_rsReconstruct_of_decodeMat_eq_ok hcheck (List.ne_nil_of_length_pos hpos) hdecode,
    h.bytes, h.otherBytes, h.descriptors, h.otherDescriptors, h.frame⟩

end Sys2Proof.Machine
end

section
/-! PROOFS. Encoded shard sets (44_rs_engine.md R249, R262): encode makes the set one, and on such a set a verify
succeeds and a second encode writes what is there already. -/

namespace Sys2Proof.Machine

variable {s s' : State} {w : Width} {k o r c p t : Nat} {len : Word} {use use' : List Nat} {E : Nat → Nat → Half}

/-! ### Written bytes and elements -/

theorem lowPart_of_isElem {a : Half} (ha : IsElem w a) : lowPart w a = a := by
  rw [lowPart, Nat.mod_eq_of_lt ha, BitVec.ofNat_toNat, BitVec.setWidth_eq]

theorem encEl_of_written {x : Half} (h : s.elem? .enc r c = some x) (hx : IsElem s.engWidth x) : s.encEl r c = x := by
  rw [encEl_eq_lowPart, State.elAt_of_written [0] h, lowPart_of_isElem hx]

theorem byte?_eq_some_shardAt (use : List Nat) (h : (s.byte? k o).isSome = true) :
    s.byte? k o = some (s.shardAt use k o) := by
  obtain ⟨b, hb⟩ := Option.isSome_iff_exists.1 h
  rw [hb, State.shardAt_of_written use hb]

/-- A written byte reads the same in every command and at every use. -/
theorem shardAt_eq_of_byte?_eq (use use' : List Nat) (h : (s.byte? k o).isSome = true)
    (heq : s'.byte? k o = s.byte? k o) : s'.shardAt use' k o = s.shardAt use k o :=
  State.shardAt_of_written use' (heq.trans (byte?_eq_some_shardAt use h))

/-! ### Encoded sets -/

/-- The shard set of `s` is written and encoded with the rows of `E`: its descriptors and bytes are written, `M[ENC]`
holds `E`, and each parity symbol is its row of `E` times the data symbols (44_rs_engine.md R249). -/
structure Encoded (E : Nat → Nat → Half) (s : State) (len : Word) : Prop where
  full : FullSet s len
  written : ∀ k < s.nTotal, ∀ o < len.toNat, (s.byte? k o).isSome = true
  row : ∀ r < s.nTotal, ∀ c < s.nData, s.encEl r c = E r c
  parity : ∀ p < s.nParity, ∀ t < s.symCount len.toNat, s.symbol s.engWidth [] (s.nData + p) t =
    dot s.engWidth s.nData (E (s.nData + p)) fun c => s.symbol s.engWidth [] c t

/-- A symbol of written bytes reads the same in every command and at every use. -/
theorem symbol_eq_of_byte?_eq (use use' : List Nat) (hk : ∀ o < len.toNat, (s.byte? k o).isSome = true)
    (heq : ∀ o < len.toNat, s'.byte? k o = s.byte? k o) (ht : t < s.symCount len.toNat) :
    s'.symbol s.engWidth use' k t = s.symbol s.engWidth use k t := by
  refine symbol_congr fun i hi => ?_
  have ho := (symByte_lt ht hi).trans_le (symCount_mul_symBytes_le s _)
  exact shardAt_eq_of_byte?_eq use use' (hk _ ho) (heq _ ho)

theorem Encoded.symbol_eq (h : Encoded E s len) (use use' : List Nat) (hk : k < s.nTotal)
    (ht : t < s.symCount len.toNat) : s.symbol s.engWidth use' k t = s.symbol s.engWidth use k t :=
  symbol_eq_of_byte?_eq use use' (h.written k hk) (fun _ _ => rfl) ht

/-- The state that a successful encode leaves. -/
def State.encoded (s : State) : State := afterSuccess (s.writeShards s.encodeCells)

theorem State.nData_add_lt (s : State) (hp : p < s.nParity) : s.nData + p < s.nTotal := Nat.add_lt_add_left hp _

theorem State.lt_nTotal_of_lt_nData (s : State) (hc : c < s.nData) : c < s.nTotal :=
  hc.trans_le (Nat.le_add_right _ _)

/-- Encode leaves the data shards (44_rs_engine.md R261). -/
theorem byte?_encoded_of_data (hfull : FullSet s len) (hc : c < s.nData) (ho : o < 2 ^ 32) :
    s.encoded.byte? c o = s.byte? c o := by
  have hlen := hfull.setLen (Nat.zero_lt_of_lt (s.lt_nTotal_of_lt_nData hc))
  exact byte?_encode_of_other (hlen ▸ hfull.badLength) ho (.inl fun h => absurd (mem_paritySlots.1 h).1 (not_le.2 hc))

/-- Encode leaves the parity function's values in the parity shards (44_rs_engine.md R260). -/
theorem byte?_encoded_of_parity (hfull : FullSet s len) (hp : p < s.nParity) (ho : o < len.toNat) :
    s.encoded.byte? (s.nData + p) o =
      some (byteOf (s.parity p (o / symBytes s.engWidth)) (o % symBytes s.engWidth)) := by
  have hk := s.nData_add_lt hp
  have hlen := hfull.setLen (Nat.zero_lt_of_lt hk)
  have h := byte?_encode_of_parity (hlen ▸ hfull.badLength) (mem_paritySlots.2 ⟨Nat.le_add_right _ _, hk⟩)
    (ho.trans_eq hlen.symm)
  rwa [Nat.add_sub_cancel_left] at h

theorem isElem_parity (s : State) (p t : Nat) : IsElem s.engWidth (s.parity p t) := isElem_dot _ _ _ _

theorem parity_eq_dot (s : State) (p t : Nat) : s.parity p t =
    dot s.engWidth s.nData (s.encEl (s.nData + p)) fun c => s.symbol s.engWidth [p] c t :=
  dot_congr (fun _ _ => rfl) fun c _ => s.symAt_eq_symbol s.engWidth [p] c t

/-- The parity symbols that encode leaves are the values of the parity function. -/
theorem symbol_encoded_of_parity (hfull : FullSet s len) (hp : p < s.nParity) (ht : t < s.symCount len.toNat) :
    s.encoded.symbol s.engWidth use (s.nData + p) t = s.parity p t := by
  refine symbol_eq_of_shardAt_eq (isElem_parity s p t) fun i hi => State.shardAt_of_written use ?_
  have hb := symBytes_pos s.engWidth
  rw [byte?_encoded_of_parity hfull hp ((symByte_lt ht hi).trans_le (symCount_mul_symBytes_le s _)),
    Nat.mul_add_div hb, Nat.div_eq_of_lt hi, Nat.mul_add_mod, Nat.mod_eq_of_lt hi, Nat.add_zero]

/-- Encode of a written set makes it an encoded one. -/
theorem encoded_of_encode (hfull : FullSet s len) (hdata : DataWritten s len)
    (hrow : ∀ r < s.nTotal, ∀ c < s.nData, s.elem? .enc r c = some (E r c))
    (hE : ∀ r < s.nTotal, ∀ c < s.nData, IsElem s.engWidth (E r c)) : Encoded E s.encoded len where
  full := hfull
  written k hk o ho := by
    obtain hd | hd := Nat.lt_or_ge k s.nData
    · rw [byte?_encoded_of_data hfull hd (ho.trans (BitVec.isLt len))]
      exact hdata k hd o ho
    · obtain ⟨p, rfl⟩ := Nat.exists_eq_add_of_le hd
      rw [byte?_encoded_of_parity hfull (Nat.lt_of_add_lt_add_left hk) ho]
      rfl
  row r hr c hc := encEl_of_written (s := s.encoded) (hrow r hr c hc) (hE r hr c hc)
  parity p hp t ht := by
    refine (symbol_encoded_of_parity hfull hp ht).trans ((parity_eq_dot s p t).trans (dot_congr ?_ ?_))
    · intro c hc
      have hr := s.nData_add_lt hp
      exact encEl_of_written (hrow _ hr c hc) (hE _ hr c hc)
    · exact fun c hc => (symbol_eq_of_byte?_eq [p] [] (hdata c hc)
        (fun o ho => byte?_encoded_of_data hfull hc (ho.trans (BitVec.isLt len))) ht).symm

/-! ### Verify and encode on an encoded set -/

/-- On an encoded set the parity function gives the parity symbols that are there. -/
theorem Encoded.parity_eq_symbol (h : Encoded E s len) (use : List Nat) (hp : p < s.nParity)
    (ht : t < s.symCount len.toNat) : s.parity p t = s.symbol s.engWidth use (s.nData + p) t := by
  have hk := s.nData_add_lt hp
  rw [h.symbol_eq [] use hk ht, h.parity p hp t ht, parity_eq_dot]
  exact dot_congr (h.row _ hk) fun c hc => h.symbol_eq [] [p] (s.lt_nTotal_of_lt_nData hc) ht

theorem Encoded.parityMatches (h : Encoded E s len) (hpos : 1 ≤ s.nTotal) : s.parityMatches = true := by
  rw [parityMatches_iff, h.full.setLen hpos]
  exact fun p hp t ht => (h.parity_eq_symbol [0] hp ht).symm

theorem Store.set_eq_self {α : Type} {m : Store α} {k : Nat} {v : α} (hm : Store.wf m)
    (h : Store.get? m k = some v) : Store.set m k v = m := by
  refine Store.ext_of_wf _ _ (Store.set_wf m k v hm) hm fun j => ?_
  rw [Store.get?_set]
  split
  · next hj => rw [hj, h]
  · rfl

/-- Writes of what is there already change nothing. -/
theorem Store.setAll_eq_self {α : Type} {m : Store α} {l : List (Nat × α)} (hm : Store.wf m)
    (h : ∀ kv ∈ l, Store.get? m kv.1 = some kv.2) : Store.setAll m l = m := by
  induction l with
  | nil => rfl
  | cons a l ih =>
    rw [Store.setAll_cons, Store.set_eq_self hm (h a List.mem_cons_self)]
    exact ih fun kv hkv => h kv (List.mem_cons_of_mem _ hkv)

/-- Encoding an encoded set leaves its memory (44_rs_engine.md R262). -/
theorem Encoded.sh_encoded (h : Encoded E s len) (hpos : 1 ≤ s.nTotal) (hm : Memory.wf s.sh) :
    s.encoded.sh = s.sh := by
  refine Store.setAll_eq_self hm fun kv hkv => ?_
  rw [encodeCells_eq, h.full.setLen hpos] at hkv
  obtain ⟨k, hk, o, ho, rfl⟩ := mem_setCells_iff.1 hkv
  obtain ⟨hle, hlt⟩ := mem_paritySlots.1 hk
  obtain ⟨p, rfl⟩ := Nat.exists_eq_add_of_le hle
  have ht : o / symBytes s.engWidth < s.symCount len.toNat := Nat.div_lt_of_lt_mul (Nat.mul_comm _ (symBytes _) ▸ ho)
  rw [Nat.add_sub_cancel_left, h.parity_eq_symbol [] (Nat.lt_of_add_lt_add_left hlt) ht, byteOf_symbol_div]
  exact byte?_eq_some_shardAt [] (h.written _ hlt o (ho.trans_le (symCount_mul_symBytes_le s _)))

theorem exec_rsEncode_of_fullSet (h : FullSet s len) (hpos : 1 ≤ s.nTotal) :
    exec .rsEncode s = .next s.encoded := exec_rsEncode_of_setCheck_eq_none (h.setCheck hpos)

/-- `M[ENC]` holds the rows of the builder's matrix (44_rs_engine.md R255, 43_encoding_matrix_builder.md R233). -/
theorem EngineInv.exists_rows (h : EngineInv s) (hc : s.status.configured = true) :
    1 ≤ s.nData ∧ s.nTotal ≤ fieldLimit s.engWidth ∧ ∃ R, Inverts s.engWidth s.nData R (pointRow s.engWidth) ∧
      ∀ r < s.nTotal, ∀ c < s.nData, s.elem? .enc r c = some (codeRow s.engWidth s.nData R r c) := by
  obtain ⟨hpos, hlim, -, -, E, hE, hat⟩ := h.built hc
  obtain ⟨R, hR, hbuild⟩ := build_eq_ok hlim
  obtain rfl := Except.ok.inj (hE.symm.trans hbuild)
  exact ⟨hpos, hlim, R, hR, fun r hr c hcol =>
    (hat r hr c hcol).trans (congrArg some (Mat.at_ofFn _ _ _ r c hr hcol))⟩

/-- Settles O32: the set that encode leaves is an encoded one. -/
theorem encodeThenVerifyMatches : Obligations.EncodeThenVerifyMatches := by
  intro s len hinv hfull hdata
  obtain ⟨hdpos, -, R, -, hrow⟩ := hinv.engine.exists_rows hfull.1
  have hpos : 1 ≤ s.nTotal := s.lt_nTotal_of_lt_nData hdpos
  have henc := encoded_of_encode hfull hdata hrow fun _ _ _ _ => isVec_codeRow _ _ _ _ _
  refine ⟨s.encoded, _, _, exec_rsEncode_of_fullSet hfull hpos, rfl,
    exec_rsVerify_of_setCheck_eq_none (henc.full.setCheck hpos), rfl, henc.parityMatches hpos,
    exec_rsEncode_of_fullSet henc.full hpos, henc.sh_encoded hpos ?_⟩
  exact Memory.setAll_wf _ _ hinv.arrays.shWf

end Sys2Proof.Machine
end

section
/-! PROOFS. The recovery theorem (44_rs_engine.md R283): the selected rows of the encoding matrix are invertible, so
from the symbols of `n_data` slots that are left RS_RECONSTRUCT recovers the data symbols, and from them every other. -/

namespace Sys2Proof.Machine

variable {s : State} {w : Width} {k n c t i j : Nat} {len : Word} {R E D : Nat → Nat → Half} {lost : List Nat}
  {M : Slots}

/-! ### The selected rows -/

/-- Distinct rows of the encoding matrix have an inverse (43_encoding_matrix_builder.md R234). -/
theorem Inverts.exists_inverts_codeRow (h : Inverts w n R (pointRow w)) {f : Nat → Nat}
    (hf : ∀ i < n, f i < fieldLimit w) (hinj : ∀ i < n, ∀ j < n, f i = f j → i = j) :
    ∃ D, matInv w (Mat.ofFn n n fun j => codeRow w n R (f j)) = .ok (Mat.ofFn n n D) ∧
      Inverts w n D fun j => codeRow w n R (f j) :=
  exists_matInv_of_not_singular (fun j => isVec_codeRow w n R (f j))
    (h.not_singular_codeRow (not_singular_pointRow hf hinj))

theorem pick_eq_getElem (hj : j < s.selected.length) : s.pick j = s.selected[j] := List.getD_eq_getElem _ _ hj

theorem pick_mem_presentSet (h : s.nData ≤ s.presentSet.length) (hj : j < s.nData) : s.pick j ∈ s.presentSet := by
  have hlen : j < s.selected.length := hj.trans_eq (length_selected h).symm
  rw [pick_eq_getElem hlen]
  exact List.mem_of_mem_take (List.getElem_mem hlen)

theorem nodup_selected (s : State) : s.selected.Nodup :=
  (List.nodup_range.filter _).sublist (List.take_sublist _ _)

theorem pick_injOn (h : s.nData ≤ s.presentSet.length) (hi : i < s.nData) (hj : j < s.nData)
    (heq : s.pick i = s.pick j) : i = j := by
  have hlen := length_selected h
  rwa [pick_eq_getElem (hi.trans_eq hlen.symm), pick_eq_getElem (hj.trans_eq hlen.symm),
    (nodup_selected s).getElem_inj_iff] at heq

/-! ### The recovered symbols -/

/-- The inverse of the selected rows takes the selected symbols back to the data symbols. -/
theorem recoveredData_eq_of_maps {A : Nat → Nat → Half} {d : Nat → Half} (hD : Inverts s.engWidth s.nData D A)
    (hd : IsVec s.engWidth d) (hmaps : Maps s.engWidth s.nData A d fun j => s.symbol s.engWidth [0] (s.pick j) t)
    (hc : c < s.nData) : s.recoveredData (Mat.ofFn s.nData s.nData D) t c = d c := by
  rw [recoveredData_eq]
  calc dot s.engWidth s.nData (fun j => (Mat.ofFn s.nData s.nData D).at c j) _
      = dot s.engWidth s.nData (D c) fun j => s.symbol s.engWidth [0] (s.pick j) t :=
        dot_congr_row fun j hj => Mat.at_ofFn _ _ D c j hc hj
    _ = d c := (hD.maps_iff d _ hd fun j => isElem_symbol s _ _ _ _).1 hmaps c hc

theorem recoveredSym_eq_dot (Dinv : Mat) (hk : s.nData ≤ k) : s.recoveredSym Dinv k t =
    dot s.engWidth s.nData (s.encEl k) (s.recoveredData Dinv t) := if_neg (not_lt.2 hk)

/-- Every symbol of an encoded set is its row of `E` times the data symbols, if the top rows are those of the
identity. -/
theorem Encoded.symbol_eq_dot (h : Encoded E s len) (hunit : ∀ r < s.nData, ∀ c < s.nData, E r c = unitVec r c)
    (hk : k < s.nTotal) (ht : t < s.symCount len.toNat) : s.symbol s.engWidth [] k t =
      dot s.engWidth s.nData (E k) fun c => s.symbol s.engWidth [] c t := by
  obtain hd | hd := Nat.lt_or_ge k s.nData
  · rw [dot_congr_row (hunit k hd)]
    exact (unitVec_dot (fun c => isElem_symbol s _ [] c t) hd).symm
  · obtain ⟨p, rfl⟩ := Nat.exists_eq_add_of_le hd
    exact h.parity p (Nat.lt_of_add_lt_add_left hk) t ht

/-! ### A set with lost slots -/

/-- `M` holds the slots of `s` with those of `lost` marked absent, and arbitrary bytes and lengths left in them. -/
structure Loses (s : State) (lost : List Nat) (M : Slots) : Prop where
  range : ∀ k ∈ lost, k < s.nTotal
  bytes : ∀ k o, k ∉ lost → o < 2 ^ 32 → Store.get? M.sh (shKey k o) = s.byte? k o
  lens : ∀ k, k ∉ lost → Store.get? M.lens k = Store.get? s.slotLen k
  present : ∀ k, Store.get? M.present k = if k ∈ lost then some false else Store.get? s.slotPresent k

namespace Loses

variable (h : Loses s lost M)
include h

theorem slotPresentAt (hfull : FullSet s len) (hk : k < s.nTotal) :
    (s.withSlots M).slotPresentAt [0] k = decide (k ∉ lost) := by
  obtain ⟨-, -, -, -, hslots⟩ := hfull
  refine State.slotPresentAt_of_written [0] ((h.present k).trans ?_)
  split
  · next hl => simp [hl]
  · next hl => simp [hl, (hslots k hk).1]

theorem mem_absentSet_iff (hfull : FullSet s len) : k ∈ (s.withSlots M).absentSet ↔ k ∈ lost := by
  rw [mem_absentSet]
  constructor
  · rintro ⟨hk, hfalse⟩
    simpa [h.slotPresentAt hfull hk] using hfalse
  · exact fun hl => ⟨h.range k hl, by simp [h.slotPresentAt hfull (h.range k hl), hl]⟩

theorem mem_presentSet_iff (hfull : FullSet s len) :
    k ∈ (s.withSlots M).presentSet ↔ k < s.nTotal ∧ k ∉ lost := by
  rw [mem_presentSet]
  refine and_congr_right fun hk => ?_
  rw [h.slotPresentAt hfull hk, decide_eq_true_eq]

theorem slotLenAt (hfull : FullSet s len) (use : List Nat) (hk : k < s.nTotal) (hl : k ∉ lost) :
    (s.withSlots M).slotLenAt use k = len := by
  obtain ⟨-, -, -, -, hslots⟩ := hfull
  exact State.slotLenAt_of_written use ((h.lens k hl).trans (hslots k hk).2)

theorem length_absentSet_le (hfull : FullSet s len) :
    (s.withSlots M).absentSet.length ≤ lost.length :=
  (List.subperm_of_subset (List.nodup_range.filter _) fun _ hk => (h.mem_absentSet_iff hfull).1 hk).length_le

/-- The slots that are left pass the length check (44_rs_engine.md R274). -/
theorem recCheck (hfull : FullSet s len) (hpos : 1 ≤ s.nData) (hlost : lost.length ≤ s.nParity) :
    (s.withSlots M).recCheck = none ∧ (s.withSlots M).recLen = len.toNat := by
  have habs : (s.withSlots M).absentSet.length ≤ s.nParity := (h.length_absentSet_le hfull).trans hlost
  have hlen {k : Nat} (use : List Nat) (hk : k ∈ (s.withSlots M).presentSet) :
      (s.withSlots M).slotLenAt use k = len := by
    obtain ⟨hlt, hl⟩ := (h.mem_presentSet_iff hfull).1 hk
    exact h.slotLenAt hfull use hlt hl
  have hpresent : s.nData ≤ (s.withSlots M).presentSet.length := nData_le_length_presentSet (s := s.withSlots M) habs
  obtain ⟨p, rest, hset⟩ := List.exists_cons_of_length_pos (hpos.trans hpresent)
  have hp : (s.withSlots M).slotLenAt [0] p = len := hlen [0] (hset ▸ List.mem_cons_self)
  have hgood := recLenBad_eq_false hset (fun k hk => (hlen [1] hk).trans hp.symm) (hp ▸ hfull.badLength)
  exact ⟨recCheck_eq_none (s := s.withSlots M) hfull.engineCheck hgood habs,
    (recLen_of_presentSet hset).trans (congrArg BitVec.toNat hp)⟩

theorem symbol_eq (henc : Encoded E s len) (use : List Nat) (hk : k < s.nTotal) (hl : k ∉ lost)
    (ht : t < s.symCount len.toNat) :
    (s.withSlots M).symbol s.engWidth use k t = s.symbol s.engWidth [] k t :=
  symbol_eq_of_byte?_eq [] use (henc.written k hk) (fun o ho => h.bytes k o hl (ho.trans (BitVec.isLt len))) ht

/-- The inverse of the selected rows recovers every symbol of the encoded set. -/
theorem recoveredSym_eq (henc : Encoded E s len) (hunit : ∀ r < s.nData, ∀ c < s.nData, E r c = unitVec r c)
    (hpick : s.nData ≤ (s.withSlots M).presentSet.length)
    (hD : Inverts s.engWidth s.nData D fun j => E ((s.withSlots M).pick j)) (hk : k < s.nTotal)
    (ht : t < s.symCount len.toNat) :
    (s.withSlots M).recoveredSym (Mat.ofFn s.nData s.nData D) k t = s.symbol s.engWidth [] k t := by
  have hdata {c : Nat} (hc : c < s.nData) :
      (s.withSlots M).recoveredData (Mat.ofFn s.nData s.nData D) t c = s.symbol s.engWidth [] c t := by
    refine recoveredData_eq_of_maps (s := s.withSlots M) (d := fun c => s.symbol s.engWidth [] c t) hD
      (fun c => isElem_symbol s _ [] c t) (fun j hj => ?_) hc
    obtain ⟨hlt, hl⟩ := (h.mem_presentSet_iff henc.full).1 (pick_mem_presentSet hpick hj)
    exact (henc.symbol_eq_dot hunit hlt ht).symm.trans (h.symbol_eq henc [0] hlt hl ht).symm
  obtain hd | hd := Nat.lt_or_ge k s.nData
  · exact (if_pos hd).trans (hdata hd)
  · rw [henc.symbol_eq_dot hunit hk ht]
    exact (recoveredSym_eq_dot (s := s.withSlots M) _ hd).trans
      (dot_congr (henc.row k hk) fun c hc => hdata hc)

/-- RS_RECONSTRUCT rebuilds the lost slots with the symbols of the encoded set. -/
theorem exists_rebuilds (hR : Inverts s.engWidth s.nData R (pointRow s.engWidth))
    (henc : Encoded (codeRow s.engWidth s.nData R) s len) (hlim : s.nTotal ≤ fieldLimit s.engWidth)
    (hpos : 1 ≤ s.nData) (hlost : lost.length ≤ s.nParity) :
    ∃ u f, exec .rsReconstruct (s.withSlots M) = .next u ∧
      Rebuilds (s.withSlots M) u len f ∧
      ∀ k < s.nTotal, ∀ t < s.symCount len.toNat, f k t = s.symbol s.engWidth [] k t := by
  obtain ⟨hcheck, hlen⟩ := h.recCheck henc.full hpos hlost
  have hpick : s.nData ≤ (s.withSlots M).presentSet.length :=
    nData_le_length_presentSet (s := s.withSlots M) ((h.length_absentSet_le henc.full).trans hlost)
  have hlt {j : Nat} (hj : j < s.nData) : (s.withSlots M).pick j < s.nTotal :=
    ((h.mem_presentSet_iff henc.full).1 (pick_mem_presentSet hpick hj)).1
  by_cases habs : (s.withSlots M).absentSet = []
  · refine ⟨_, s.symbol s.engWidth [], exec_rsReconstruct_of_absentSet_eq_nil hcheck habs, ?_, fun _ _ _ _ => rfl⟩
    have hnot (k : Nat) : k ∉ (s.withSlots M).absentSet := by simp [habs]
    exact
    { bytes := fun k hk => absurd hk (hnot k)
      otherBytes := fun _ _ _ _ => rfl
      descriptors := fun k hk => absurd hk (hnot k)
      otherDescriptors := fun _ _ => ⟨rfl, rfl⟩
      frame := rfl }
  · obtain ⟨D, hinv, hD⟩ := hR.exists_inverts_codeRow (fun j hj => (hlt hj).trans_le hlim)
      fun i hi j hj => pick_injOn hpick hi hj
    have hdecode : (s.withSlots M).decodeMat = .ok (Mat.ofFn s.nData s.nData D) := by
      rw [decodeMat_eq hpick, ← hinv]
      exact congrArg _ (Mat.ofFn_congr fun j hj c hc => henc.row _ (hlt hj) c hc)
    exact ⟨_, _, exec_rsReconstruct_of_decodeMat_eq_ok hcheck habs hdecode,
      rebuilds_recovered _ hlen henc.full.badLength, fun k hk t ht =>
        h.recoveredSym_eq henc (fun r hr c hc => hR.codeRow_of_lt hr hc) hpick hD hk ht⟩

end Loses

/-- A rebuilt set holds the bytes of the encoded set. -/
theorem Loses.byte?_of_rebuilds {u : State} {f : Nat → Nat → Half} (h : Loses s lost M)
    (henc : Encoded E s len) (hu : Rebuilds (s.withSlots M) u len f)
    (hf : ∀ k < s.nTotal, ∀ t < s.symCount len.toNat, f k t = s.symbol s.engWidth [] k t) (hk : k < s.nTotal)
    {o : Nat} (ho : o < len.toNat) : u.byte? k o = s.byte? k o := by
  by_cases hl : k ∈ lost
  · have hbytes := symCount_mul_symBytes henc.full.badLength
    have ht : o / symBytes s.engWidth < s.symCount len.toNat :=
      Nat.div_lt_of_lt_mul (by rwa [Nat.mul_comm, hbytes])
    rw [hu.bytes k ((h.mem_absentSet_iff henc.full).2 hl) o ho, byte?_eq_some_shardAt [] (henc.written k hk o ho),
      ← byteOf_symbol_div s s.engWidth, ← hf k hk _ ht]
    rfl
  · have ho' : o < 2 ^ 32 := ho.trans (BitVec.isLt len)
    rw [hu.otherBytes k o ho' (.inl fun hm => hl ((h.mem_absentSet_iff henc.full).1 hm))]
    exact h.bytes k o hl ho'

/-- A rebuilt set is present with its length. -/
theorem Loses.descriptors_of_rebuilds {u : State} {f : Nat → Nat → Half} (h : Loses s lost M)
    (hfull : FullSet s len) (hu : Rebuilds (s.withSlots M) u len f) (hk : k < s.nTotal) :
    Store.get? u.slotLen k = some len ∧ Store.get? u.slotPresent k = some true := by
  by_cases hl : k ∈ lost
  · exact hu.descriptors k ((h.mem_absentSet_iff hfull).2 hl)
  · obtain ⟨hlen, hpres⟩ := hu.otherDescriptors k fun hm => hl ((h.mem_absentSet_iff hfull).1 hm)
    obtain ⟨-, -, -, -, hslots⟩ := hfull
    obtain ⟨hp, hlen'⟩ := hslots k hk
    exact ⟨hlen.trans ((h.lens k hl).trans hlen'), hpres.trans ((h.present k).trans ((if_neg hl).trans hp))⟩

/-- Settles O36: the lost slots are rebuilt with the symbols that the encode left. -/
theorem reconstructRestoresLostShards : Obligations.ReconstructRestoresLostShards := by
  intro s t len lost sh lens present hinv hfull hdata ht _ hrange hlost hsh hlens hpresent
  obtain ⟨hdpos, hlim, R, hR, hrow⟩ := hinv.engine.exists_rows hfull.1
  cases (exec_rsEncode_of_fullSet hfull (s.lt_nTotal_of_lt_nData hdpos)).symm.trans ht
  have henc := encoded_of_encode hfull hdata hrow fun _ _ _ _ => isVec_codeRow _ _ _ _ _
  have h : Loses s.encoded lost ⟨sh, lens, present⟩ := ⟨hrange, hsh, hlens, hpresent⟩
  obtain ⟨u, f, hexec, hu, hf⟩ := h.exists_rebuilds hR henc hlim hdpos hlost
  refine ⟨u, hexec, ?_, fun k hk o ho => h.byte?_of_rebuilds henc hu hf hk ho,
    fun k hk => h.descriptors_of_rebuilds henc.full hu hk⟩
  rw [hu.frame]
  rfl

end Sys2Proof.Machine
end

section
/-! SUPPORT. The errors that a computation can end with (60_exceptions.md R293), check by check and function by
function, and the code that its command then completes with. -/

namespace Sys2Proof.Machine

variable {α : Type} {l : List CmdError} {e : CmdError} {s t b : State} {w : Width}

/-! ### Computations and completions -/

/-- Every error that `x` can be is one of `l`. -/
def FailsOnlyWith (l : List CmdError) (x : Except CmdError α) : Prop := ∀ e, x = .error e → e ∈ l

theorem FailsOnlyWith.ok (a : α) : FailsOnlyWith l (.ok a) := nofun

theorem FailsOnlyWith.error (h : e ∈ l) : FailsOnlyWith (α := α) l (.error e) := by
  rintro _ ⟨⟩
  exact h

theorem FailsOnlyWith.gfResult {x : Except CmdError Half} (hx : FailsOnlyWith l x) (s : State) :
    FailsOnlyWith l (gfResult s x) := by
  cases x with
  | error e => exact .error (hx e rfl)
  | ok r => exact .ok _

theorem FailsOnlyWith.matResult {x : Except CmdError Mat} (hx : FailsOnlyWith l x) (s : State) (md : MatReg) :
    FailsOnlyWith l (matResult s md x) := by
  cases x with
  | error e => exact .error (hx e rfl)
  | ok R => exact .ok _

/-- A check, and behind it a computation that runs only if it passes. -/
theorem FailsOnlyWith.check {c : Option CmdError} {x : Except CmdError α} (hc : ∀ e, c = some e → e ∈ l)
    (hx : c = none → FailsOnlyWith l x) : FailsOnlyWith l (match c with | some e => .error e | none => x) := by
  cases c with
  | some e => exact .error (hc e rfl)
  | none => exact hx rfl

/-- A completion reports success or an error of its computation (40_command_lifecycle.md R152, R154). -/
theorem FailsOnlyWith.errCode_mem {r : Except CmdError State} (hr : FailsOnlyWith l r)
    (h : complete b r = .next t) : t.status.errCode ∈ 0 :: l.map CmdError.code := by
  rcases complete_cases h with ⟨u, -, rfl⟩ | ⟨e, he, rfl⟩
  · exact List.mem_cons_self
  · exact List.mem_cons_of_mem _ (List.mem_map_of_mem (hr e he))

theorem errCode_of_complete_ok {u : State} (h : complete b (.ok u) = .next t) : t.status.errCode = 0 :=
  List.mem_singleton.1 ((FailsOnlyWith.ok (l := []) u).errCode_mem h)

/-! ### Field arithmetic and matrices -/

theorem failsOnlyWith_gfInv (w : Width) (a : Half) : FailsOnlyWith [.divideByZero] (gfInv w a) := by
  unfold gfInv
  split
  · exact .error List.mem_cons_self
  · exact .ok _

theorem failsOnlyWith_gfDiv (w : Width) (a b : Half) : FailsOnlyWith [.divideByZero] (gfDiv w a b) := by
  unfold gfDiv
  split
  · next he => exact .error (failsOnlyWith_gfInv w b _ he)
  · exact .ok _

theorem failsOnlyWith_matMul (w : Width) (A B : Mat) : FailsOnlyWith [.dimensionMismatch] (matMul w A B) := by
  unfold matMul
  split
  · exact .error List.mem_cons_self
  · exact .ok _

theorem failsOnlyWith_submatrix (A : Mat) (ix : List Nat) : FailsOnlyWith [.indexOutOfRange] (submatrix A ix) := by
  unfold submatrix
  split
  · exact .error List.mem_cons_self
  · exact .ok _

/-- The inversion divides by a pivot only, which is not 0: a square matrix is inverted or singular
(42_matrix_engine.md R207, R209). -/
theorem failsOnlyWith_matInv_ofFn {A : Nat → Nat → Half} (hA : ∀ r, IsVec w (A r)) (n : Nat) :
    FailsOnlyWith [.matrixSingular] (matInv w (Mat.ofFn n n A)) := by
  obtain ⟨R, hok, -⟩ | ⟨herr, -⟩ := matInv_ofFn hA n
  · rw [hok]
    exact .ok _
  · rw [herr]
    exact .error List.mem_cons_self

/-- The operand of MAT_INV is square or of another shape (42_matrix_engine.md R216). -/
theorem failsOnlyWith_matInv_matVal (s : State) (w : Width) (k : Nat) (m : MatReg) :
    FailsOnlyWith [.dimensionMismatch, .matrixSingular] (matInv w (s.matVal w k m)) := by
  by_cases hsq : (s.matVal w k m).rows = (s.matVal w k m).cols
  · have hsq' : (s.shapes.get m).rows.toNat = (s.shapes.get m).cols.toNat := hsq
    rw [s.matVal_eq, ← hsq']
    exact fun e he => List.mem_cons_of_mem _
      (failsOnlyWith_matInv_ofFn (fun _ _ => isElem_lowPart w _) _ e he)
  · rw [matInv_of_ne hsq]
    exact .error List.mem_cons_self

/-! ### The checked build (43_encoding_matrix_builder.md R233, R235) -/

theorem mem_of_countCheck {nMax n p : Nat} (h : countCheck w nMax n p = some e) :
    e ∈ [.invalidShardCount, .tooManyShards] := by
  unfold countCheck at h
  split_ifs at h <;> cases h <;> decide

/-- The builder never fails on counts that pass the checks. -/
theorem failsOnlyWith_cfgBuild (s : State) (w : Width) :
    FailsOnlyWith [.invalidShardCount, .tooManyShards] (s.cfgBuild w) := by
  refine .check (fun _ => mem_of_countCheck) fun hnone => ?_
  obtain ⟨-, hlim, -⟩ := countCheck_eq_none_iff.1 hnone
  obtain ⟨R, -, hok⟩ := build_eq_ok hlim
  rw [hok]
  exact .ok _

/-! ### The engine commands (44_rs_engine.md R260, R265, R275) -/

theorem mem_of_engineCheck (h : s.engineCheck = some e) : e ∈ [.notConfigured, .invalidShardCount] := by
  unfold State.engineCheck at h
  split_ifs at h <;> cases h <;> decide

theorem mem_of_setCheck (h : s.setCheck = some e) :
    e ∈ [.notConfigured, .invalidShardCount, .incorrectShardSize] := by
  unfold State.setCheck at h
  split at h
  · next he =>
    cases h
    exact List.mem_append_left [.incorrectShardSize] (mem_of_engineCheck he)
  · split_ifs at h <;> cases h <;> decide

theorem mem_of_recCheck (h : s.recCheck = some e) :
    e ∈ [.notConfigured, .invalidShardCount, .incorrectShardSize, .tooFewShardsPresent] := by
  unfold State.recCheck at h
  split at h
  · next he =>
    cases h
    exact List.mem_append_left [.incorrectShardSize, .tooFewShardsPresent] (mem_of_engineCheck he)
  · split_ifs at h <;> cases h <;> decide

theorem length_absentSet_le_of_recCheck (h : s.recCheck = none) : s.absentSet.length ≤ s.nParity := by
  unfold State.recCheck at h
  split at h
  · cases h
  · split_ifs at h with _ hfew
    exact not_lt.1 hfew

/-- When enough slots are present, the selected rows of `E` are a square matrix of field elements. -/
theorem failsOnlyWith_decodeMat (h : s.recCheck = none) : FailsOnlyWith [.matrixSingular] s.decodeMat := by
  rw [decodeMat_eq (nData_le_length_presentSet (length_absentSet_le_of_recCheck h))]
  refine failsOnlyWith_matInv_ofFn (fun j c => ?_) _
  rw [encEl_eq_lowPart]
  exact isElem_lowPart _ _

end Sys2Proof.Machine
end

section
/-! PROOFS. The exception family: the error codes of each command (60_exceptions.md R293, R294), the interrupt (R295),
and the sticky `ACCERR` (R296). -/

namespace Sys2Proof.Machine

variable {s t u : State} {i : Instr}

/-! ### Error codes -/

/-- Settles O9, command by command: the errors of its computation. -/
theorem errorCodesPerCommand : Obligations.ErrorCodesPerCommand := by
  intro i s t h
  cases i with
  | nop | gfAdd | gfMul | gfPow => exact errCode_of_complete_ok h
  | gfDiv w => exact ((failsOnlyWith_gfDiv w _ _).gfResult s).errCode_mem h
  | gfInv w => exact ((failsOnlyWith_gfInv w _).gfResult s).errCode_mem h
  | matIdentity md =>
    refine FailsOnlyWith.errCode_mem (l := [.capacityExceeded]) (.matResult ?_ s md) h
    split
    · exact .error List.mem_cons_self
    · exact .ok _
  | matMul w md ma mb => exact ((failsOnlyWith_matMul w _ _).matResult s md).errCode_mem h
  | matSub md ma => exact ((failsOnlyWith_submatrix _ _).matResult s md).errCode_mem h
  | matInv w md ma => exact ((failsOnlyWith_matInv_matVal s w 0 ma).matResult s md).errCode_mem h
  | matBuild w md => exact ((failsOnlyWith_cfgBuild s w).matResult s md).errCode_mem h
  | rsConstruct w =>
    refine FailsOnlyWith.errCode_mem (l := [.invalidShardCount, .tooManyShards]) ?_ h
    split
    · next he => exact .error (failsOnlyWith_cfgBuild s w _ he)
    · exact .ok _
  | rsEncode | rsVerify => exact (FailsOnlyWith.check (fun _ => mem_of_setCheck) fun _ => .ok _).errCode_mem h
  | rsReconstruct =>
    refine FailsOnlyWith.errCode_mem (.check (fun _ he => List.mem_append_left [.matrixSingular] (mem_of_recCheck he))
      fun hnone => ?_) h
    split
    · exact .ok _
    · split
      · next he => exact .error (List.mem_append_right _ (failsOnlyWith_decodeMat hnone _ he))
      · exact .ok _

/-! ### ACCERR -/

/-- No command writes `ACCERR` (40_command_lifecycle.md R156). -/
theorem exec_keeps_accErr (h : exec i s = .next t) : t.status.accErr = s.status.accErr := by
  obtain ⟨x, o, hx⟩ := exists_completion i s
  cases hx.symm.trans h
  rfl

theorem engineTurn_keeps_accErr (h : engineTurn s = .next t) : t.status.accErr = s.status.accErr := by
  rcases engineTurn_cases h with ⟨-, rfl⟩ | ⟨v, -, -, ⟨e, -, rfl⟩ | ⟨i, -, hx⟩⟩
  · rfl
  · rfl
  · exact exec_keeps_accErr hx

/-- An accepted write of another register than `STATUS` keeps `ACCERR`. -/
theorem writeReg_keeps_accErr {r : Reg} {v : Word} (h : writeReg r v s = some u) (hr : r ≠ .status) :
    u.status.accErr = s.status.accErr := by
  cases r
  case status => exact absurd rfl hr
  case id | capNmax | capShcap | engNdata | engNparity | gfR | tblData => cases h
  case matSel =>
    obtain ⟨m, -, rfl⟩ := Option.map_eq_some_iff.1 h
    rfl
  case matShape | matData | idxCount | idxData | slotCount | slotLen | slotPresent | shData =>
    obtain ⟨-, h⟩ := Option.ite_none_right_eq_some.1 h
    cases h
    rfl
  case cmd | intEn | cfgNdata | cfgNparity | argN | gfA | gfB | gfN | matRow | matCol | idxPtr | slotSel | shSlot |
      shOff | tblSel | tblIdx =>
    cases h
    rfl

theorem busRead_keeps_accErr (off : BitVec 8) (hs : s.status.accErr = true) :
    (busRead off s).2.status.accErr = true := by
  rcases busRead_cases off s with he | ⟨r, a, -, -, ha, he⟩
  · rw [he]
    rfl
  · obtain ⟨c, p, o, x, d, hx⟩ := readReg_state ha
    rw [he, hx]
    exact hs

/-- The only write that clears `ACCERR` is one of `STATUS`, with a 1 in its bit (10_state.md R36). -/
theorem busWrite_clears_accErr {off : BitVec 8} {v : Word} (hs : s.status.accErr = true)
    (h : (busWrite off v s).status.accErr = false) : off = 0x0C ∧ v.getLsbD 6 = true := by
  rcases busWrite_cases off v s with he | ⟨r, u, hreg, -, hu, he⟩
  · rw [he] at h
    cases h
  · rw [he] at h
    obtain rfl : r = .status := by
      by_contra hr
      cases hs.symm.trans ((writeReg_keeps_accErr hu hr).symm.trans h)
    cases hu
    exact ⟨(regAt_eq_some_iff.1 hreg).symm, by simpa [hs] using h⟩

theorem hostRead_keeps_accErr {addr size : Nat} (hs : s.status.accErr = true)
    (h : hostRead addr size s = .next t) : t.status.accErr = true := by
  unfold hostRead at h
  split at h
  · cases h
  · split at h
    · cases h
      exact busRead_keeps_accErr _ hs
    · cases h
      rfl

/-- Everything a host write can do: another size than a word is rejected, and a word goes to the bus at its offset
(20_memory.md R90, R92). -/
theorem hostWrite_cases {addr : Nat} {lanes : List Byte} (h : hostWrite addr lanes s = .next t) :
    t = s.reject ∨ ∃ off v, blockOffset s.params addr = some off ∧ wordOfLanes lanes = some v ∧
      t = busWrite off v s := by
  unfold hostWrite at h
  split at h
  · cases h
  · next off hoff =>
    split at h
    · cases h
      exact .inl rfl
    · next v hv =>
      cases h
      exact .inr ⟨off, v, hoff, hv, rfl⟩

theorem hostTurn_clears_accErr {op : BusOp} (h : hostTurn op s = .next t) (hs : s.status.accErr = true)
    (ht : t.status.accErr = false) : ∃ addr lanes v, op = .write addr lanes ∧
      blockOffset s.params addr = some 0x0C ∧ wordOfLanes lanes = some v ∧ v.getLsbD 6 = true := by
  cases op with
  | read addr size => cases (hostRead_keeps_accErr hs h).symm.trans ht
  | write addr lanes =>
    rcases hostWrite_cases h with rfl | ⟨off, v, hoff, hv, rfl⟩
    · cases ht
    · obtain ⟨rfl, hbit⟩ := busWrite_clears_accErr hs ht
      exact ⟨addr, lanes, v, rfl, hoff, hv, hbit⟩

/-- Settles O44, agent by agent. -/
theorem accessErrorIsSticky : Obligations.AccessErrorIsSticky := by
  intro s t h hs ht
  rcases step_cases h with ⟨-, h⟩ | ⟨rest, ⟨-, h⟩ | ⟨op, ha, h⟩ | ⟨ha, -⟩⟩
  · cases hs.symm.trans ((engineTurn_keeps_accErr h).symm.trans ht)
  · cases hs.symm.trans ((engineTurn_keeps_accErr h).symm.trans ht)
  · obtain ⟨addr, lanes, v, rfl, hoff, hv, hbit⟩ := hostTurn_clears_accErr h hs ht
    exact .inr ⟨lanes, v, rest, addr, ha, hoff, hv, hbit⟩
  · exact .inl ⟨rest, ha⟩

/-! ### The interrupt -/

theorem irq_iff : s.irq = true ↔ (s.status.done = true ∧ s.intEn.getLsbD 0 = true) ∨
    (s.status.accErr = true ∧ s.intEn.getLsbD 1 = true) := by
  simp [State.irq, State.doneIe, State.accErrIe]

theorem irq_of_completion (h : exec i s = .next t) (hie : s.intEn.getLsbD 0 = true) : t.irq = true := by
  obtain ⟨x, o, hx⟩ := exists_completion i s
  cases hx.symm.trans h
  exact irq_iff.2 (.inl ⟨rfl, hie⟩)

theorem irq_rejectedAccess (hie : s.intEn.getLsbD 1 = true) : (rejectedAccess s).irq = true :=
  irq_iff.2 (.inr ⟨rfl, hie⟩)

theorem irq_statusWrite_iff (v : Word) (s : State) : (busWrite 0x0C v s).irq = true ↔
    (s.status.done = true ∧ v.getLsbD 1 = false ∧ s.intEn.getLsbD 0 = true) ∨
      (s.status.accErr = true ∧ v.getLsbD 6 = false ∧ s.intEn.getLsbD 1 = true) := by
  have h : busWrite 0x0C v s = { s with status := s.status.clearedBy v } :=
    busWrite_accepted (r := .status) (lockedOut_of_open s rfl) rfl
  rw [h, irq_iff]
  simp [and_assoc]

theorem irq_intEnWrite_iff (v : Word) (s : State) : (busWrite 0x14 v s).irq = true ↔
    (s.status.done = true ∧ v.getLsbD 0 = true) ∨ (s.status.accErr = true ∧ v.getLsbD 1 = true) := by
  have h : busWrite 0x14 v s = { s with intEn := v.setWidth 2 } :=
    busWrite_accepted (r := .intEn) (lockedOut_of_open s rfl) rfl
  rw [h, irq_iff]
  simp

theorem irq_issue_iff (v : Word) (hidle : s.status.busy = false) : (busWrite 0x10 v s).irq = true ↔
    s.status.accErr = true ∧ s.intEn.getLsbD 1 = true := by
  have h : busWrite 0x10 v s = s.issue v := busWrite_accepted (r := .cmd) (lockedOut_of_idle hidle) rfl
  rw [h, irq_iff]
  simp

/-- Settles O59, write by write. -/
theorem interruptFollowsStatusAndEnables : Obligations.InterruptFollowsStatusAndEnables := by
  intro i s t off v doneIe accErrIe done accErr
  refine ⟨irq_iff, irq_of_completion, fun h hie => ?_, fun h hie => ?_, irq_statusWrite_iff v s,
    irq_intEnWrite_iff v s, irq_issue_iff v⟩
  · rw [h]
    exact irq_rejectedAccess hie
  · rw [h]
    exact irq_rejectedAccess hie

end Sys2Proof.Machine
end
